-- ==== Sys2Proof/Word.lean ====
section
/-! DEFINITION. The word types of the model: what the spec treats as bits. -/
namespace Sys2Proof

/-- One byte of a frame, an address on the line, a sequence or an order number (R1, R2, R4, R118). -/
abbrev Byte := BitVec 8
/-- A 16-bit total of a tally, a check or an audit counter (1.3, R3, R187). -/
abbrev Word16 := BitVec 16
/-- A channel totalizer, which passes from 4294967295 to 0 (R50). -/
abbrev Word32 := BitVec 32

end Sys2Proof
end

