-- ==== Sys2Proof/Syntax.lean ====
section
/-! DEFINITION. The commands: one constructor of `Instr` for each row of spec/opcode_table.json, and the operand types
they carry. Frames carry the bytes the spec lays out (1.2, 1.3). The arguments of requests and the entries of tables have
no byte layout in the spec, so they are named fields (notes/assumptions/10.md); their fields are not bounded, because the
part judges the ranges itself. -/
namespace Sys2Proof

/-- The two channels; `none` of an `Option Chan` operand stands for a channel argument other than A or B. -/
inductive Chan | a | b
  deriving DecidableEq, Repr

/-- The two line ports (1.1). -/
inductive Port | f | c
  deriving DecidableEq, Repr

/-- Valve positions (R5). -/
inductive Pos | closed | slow | full
  deriving DecidableEq, Repr

/-- The roles of field nodes (R6). -/
inductive Role | tally | probe | vapour | reel | valve
  deriving DecidableEq, Repr

/-- Station classes, in increasing order (R196). -/
inductive Cls | driver | office | metrology
  deriving DecidableEq, Repr

/-- The seven table kinds (R23). -/
inductive TableKind | product | price | correction | stopProgram | nodeMap | station | route
  deriving DecidableEq, Repr

/-- The regions of the non-volatile store: one per table kind and one for the settings (2.1). -/
inductive Region | settings | table (k : TableKind)
  deriving DecidableEq, Repr

/-- The eleven settings of R39. -/
inductive Setting
  | printer | cab | settleQuiet | settleLimit | creepLimit | standbyDelay | supplySystem | lowLevel | heelAllowance
  | alertMask | rawEcho
  deriving DecidableEq, Repr

/-- The six metrology settings of R188. -/
inductive MetSetting | factorA | factorB | offsetA | offsetB | jumpLimit | reverseLimit
  deriving DecidableEq, Repr

/-- A frame without its length and check bytes, which follow from the rest (1.2, R3). -/
structure Frame where
  dst : Byte
  src : Byte
  kind : Byte
  seq : Byte
  payload : List Byte
  deriving DecidableEq, Repr

/-- A product entry (R24). -/
structure ProductEntry where
  code : Nat
  name : List Byte
  curve : Nat
  startSlow : Nat
  overrun : Nat
  minDelivery : Nat
  fee : Nat
  tax : Nat
  deriving DecidableEq, Repr

/-- A price tier: whole litres, tenths of a minor unit per litre (R25). -/
structure Tier where
  fromVolume : Nat
  unitPrice : Nat
  deriving DecidableEq, Repr

/-- A price list (R25). -/
structure PriceList where
  code : Nat
  tiers : List Tier
  deriving DecidableEq, Repr

/-- A correction curve, its factors from the coldest point to the warmest (R26). -/
structure Curve where
  number : Nat
  factors : List Nat
  deriving DecidableEq, Repr

/-- Watch point quantities (R27, R129). -/
inductive Quantity | net | gross | rate | amount
  deriving DecidableEq, Repr

/-- Watch point relations (R27). -/
inductive Relation | atOrAbove | below
  deriving DecidableEq, Repr

/-- Watch point references (R27). -/
inductive Reference | absolute | fromAuthorised
  deriving DecidableEq, Repr

/-- Watch point actions (R133). -/
inductive Action | note | slow | close | hold | endDelivery
  deriving DecidableEq, Repr

/-- Stop program modes (R131). -/
inductive ProgramMode | independent | sequence | joint
  deriving DecidableEq, Repr

/-- One watch point (R27). -/
structure Watch where
  quantity : Quantity
  relation : Relation
  reference : Reference
  value : Nat
  persistence : Nat
  action : Action
  deriving DecidableEq, Repr

/-- The contents of a stop program that is not empty (R27). -/
structure StopProgram where
  watchA : Watch
  watchB : Watch
  mode : ProgramMode
  deriving DecidableEq, Repr

/-- A staged stop program: its number and its contents (R27). -/
structure ProgramEntry where
  number : Nat
  program : StopProgram
  deriving DecidableEq, Repr

/-- A node map entry (R6). -/
structure NodeEntry where
  address : Byte
  role : Role
  chan : Chan
  silence : Nat
  deriving DecidableEq, Repr

/-- A station table entry (R7). -/
structure StationEntry where
  address : Byte
  cls : Cls
  deriving DecidableEq, Repr

/-- A route header (R65). -/
structure RouteHeader where
  id : Nat
  count : Nat
  unplanned : Bool
  ceiling : Option Nat
  deriving DecidableEq, Repr

/-- Drop kinds (R66). -/
inductive DropKind | fill | preset
  deriving DecidableEq, Repr

/-- A drop entry as it is staged or added: an absent adjustment and a DEFAULT stop program are `none` (R66). -/
structure StagedDrop where
  number : Nat
  account : List Byte
  product : Nat
  kind : DropKind
  preset : Option Nat
  ullage : Option Nat
  ceiling : Option Nat
  adjustment : Option Int
  program : Option Nat
  deriving DecidableEq, Repr

/-- One entry of a staged table. `illCoded k` is an entry of kind `k` in which an enumerated field holds a code its
kind does not define, so that it fails the range check of its kind (R32, check 6). -/
inductive Entry
  | product (e : ProductEntry)
  | price (e : PriceList)
  | correction (e : Curve)
  | stopProgram (e : ProgramEntry)
  | nodeMap (e : NodeEntry)
  | station (e : StationEntry)
  | header (e : RouteHeader)
  | drop (e : StagedDrop)
  | illCoded (k : TableKind)
  deriving DecidableEq, Repr

/-- The two forms of ADD DROP's arguments (R77). `illCoded` is a FULL form whose drop kind holds a code that R66 does not
define, so that it fails check 5. -/
inductive AddForm
  | short (number : Nat) (account : List Byte) (product : Nat)
  | full (drop : StagedDrop)
  | illCoded
  deriving DecidableEq, Repr

/-- What a slot reads as after a failed program or an erase that did not succeed: erased, a record (the one being
programmed, or the one that stood there), or content that the correction cannot repair (R166, R174, R177). -/
inductive SlotLeft | erased | written | unreadable
  deriving DecidableEq, Repr, Inhabited

/-- What comes with the retirement of a block (R174): the slots that the read-back finds UNREADABLE, and whether the
retired mark was programmed. -/
structure RetireReport where
  lost : List Nat
  markOk : Bool
  deriving DecidableEq, Repr

/-- One command: one row of spec/opcode_table.json, in the table's order. Voltages are in mV. `src` is the address of
the sending node or station, `seq` the header sequence. -/
inductive Instr
  | powerOn (mv : Nat)
  | storeRead (failing : List Region)
  | reconstruction (badSlots : List (Nat × Nat)) (badHeaders : List Nat)
  | startingResume (mv : Nat)
  | startingPowerLoss (mv : Nat)
  | supplyLow (mv : Nat)
  | supplyNormal (mv : Nat)
  | brown (mv : Nat)
  | ignitionOff
  | ignitionOn
  | standbyDelayExpiry
  | metrologySwitchOpen
  | metrologySwitchClose
  | clockSecond
  | malformedFrame (port : Port) (bytes : List Byte)
  | tally (dst src seq : Byte) (fwd rev elapsed : Word16)
  | probe (dst src seq : Byte) (temp : Word16) (status : Byte)
  | contact (dst src seq : Byte) (state : Byte)
  | reelContact (dst src seq : Byte) (state : Byte)
  | valveAnswer (dst src seq : Byte) (position number : Byte)
  | cabValveClosed (dst src seq : Byte) (number : Byte)
  | cabValveOpen (dst src seq : Byte) (full : Bool) (number : Byte)
  | throughFrame (port : Port) (frame : Frame)
  | nonRequestToZero (src kind seq : Byte) (payload : List Byte)
  | unknownStationRequest (src seq : Byte) (payload : List Byte)
  | unknownRequestCode (src seq code : Byte)
  | openTicket (src seq : Byte) (drop : Nat) (chan : Option Chan) (comp : Nat)
  | closeTicket (src seq : Byte) (chan : Option Chan)
  | clearHold (src seq : Byte) (chan : Option Chan)
  | retryClose (src seq : Byte) (chan : Option Chan)
  | reprint (src seq : Byte) (sequence : Nat)
  | readPending (src seq : Byte) (chan : Option Chan)
  | openRoute (src seq : Byte)
  | closeRoute (src seq : Byte)
  | nextDrop (src seq : Byte)
  | readDrop (src seq : Byte) (drop : Nat)
  | skip (src seq : Byte) (drop : Nat)
  | restore (src seq : Byte) (drop : Nat)
  | addDrop (src seq : Byte) (form : AddForm)
  | cancelDrop (src seq : Byte) (drop : Nat)
  | readTotals (src seq : Byte)
  | beginLoad (src seq : Byte) (kind : Option TableKind) (count : Nat)
  | loadPiece (src seq : Byte) (first : Nat) (entries : List Entry) (ragged : Bool)
  | activate (src seq : Byte)
  | abandon (src seq : Byte)
  | writeSetting (src seq : Byte) (setting : Option Setting) (value : Int)
  | readRecord (src seq : Byte) (sequence : Nat)
  | releaseThrough (src seq : Byte) (sequence : Nat)
  | readHealth (src seq : Byte) (page : Nat)
  | loadCompartment (src seq : Byte) (comp product litres : Nat)
  | writeMetrologySetting (src seq : Byte) (setting : Option MetSetting) (value : Int)
  | openProving (src seq : Byte) (chan : Option Chan) (litres : Nat)
  | provingResult (src seq : Byte) (chan : Option Chan) (observed : Nat)
  | applyFactor (src seq : Byte)
  | clearLockout (src seq : Byte)
  | status (src seq : Byte)
  | setClock (src seq : Byte) (seconds : Option Nat)
  | restart (src seq : Byte)
  | fTransmitEnd
  | cTransmitEnd
  | silenceTimerExpiry (node : Byte)
  | probeStalenessExpiry (chan : Chan)
  | noticeTimerExpiry (chan : Chan)
  | settleQuietExpiry (chan : Chan)
  | settleLimitExpiry (chan : Chan)
  | answerTimerExpiry (chan : Chan)
  | arbiterTake
  | recordProgramEnd (ok : Bool) (left : SlotLeft) (report : RetireReport)
  | drainedMarkEnd (ok : Bool) (report : RetireReport)
  | eraseStart
  | eraseEnd (ok : Bool) (markOk : Bool)
  | storeWriteEnd (region : Region) (ok : Bool)
  | recordReadEnd (readable : Bool)
  deriving DecidableEq, Repr

end Sys2Proof
end

