-- ==== Sys2Proof/Decode.lean ====
section
/-! DEFINITION. The decoder of table words. spec/opcode_table.json gives no row any bits: the rows are steps of the part
(frames, requests, completions, expiries, pins), not words. The bytes that the spec does lay out, the frames of the line,
are read in Machine/Operands.lean and decided in Machine/Frames.lean. -/
namespace Sys2Proof

/-- The command that a table word spells: none, for every word, because no row has bits. -/
def decodeTableWord (_nbits _w : Nat) : Option Instr := none

end Sys2Proof
end

