-- ==== Sys2Proof/Machine/State.lean ====
section
/-! DEFINITION. The state of the HK624, block by block as the spec names its blocks, and the state after reset. All of it
is plain data. The line, the journal and the queues are lists in the order the rules of the spec ask for. -/
namespace Sys2Proof.Machine

/-! ### Values carried by several blocks -/

/-- The states of a ticket context (R86, R87). -/
inductive CtxState | idle | armed | flowing | settling | paused | held | closing | faulted
  deriving DecidableEq, Repr

/-- The mode of a ticket context (R86). -/
inductive Mode | delivery | proving
  deriving DecidableEq, Repr

/-- The ten causes, in rank order (R137). -/
inductive Cause | tally | metrology | supply | air | valve | creep | silent | probe | reel | program
  deriving DecidableEq, Repr

/-- What ended an episode (R93). -/
inductive EndCause | driver | program | guard | endAction | hold | shutdown
  deriving DecidableEq, Repr

/-- What began a close (R86); `nothing` is the spec's NONE. -/
inductive CloseOrigin | nothing | request | auto | lockout | shutdown
  deriving DecidableEq, Repr

/-- A ticket's status (R101). -/
inductive Status | complete | short | interrupted | void
  deriving DecidableEq, Repr

/-- A drop's state (R67, R68); `partly` is the spec's PARTIAL. -/
inductive DropState | planned | partly | delivered | skipped | cancelled
  deriving DecidableEq, Repr

/-- The refusal codes of 11.2. -/
inductive RefCode
  | state | cls | notFound | argument | busy | inUse | table | journalFull | lockout | storage | limit | hold | reel
  | episodes | metrology
  deriving DecidableEq, Repr

/-- The five flags of a ticket (R86, R102). -/
structure Flags where
  clamped : Bool := false
  overrun : Bool := false
  creepSeen : Bool := false
  tallyGaps : Bool := false
  clockUnset : Bool := false
  deriving DecidableEq, Repr

/-- One episode (R92); end net and end cause are absent until it ends. -/
structure Episode where
  startNet : Nat
  endNet : Option Nat := none
  cause : Option EndCause := none
  note : Bool := false
  noFlow : Bool := false
  deriving DecidableEq, Repr

/-- One hold entry (R141); node 0 is none. -/
structure HoldEntry where
  primary : Cause
  net : Nat
  position : Pos
  node : Byte
  deriving DecidableEq, Repr

/-- The planning fields of a drop (R66), with the stop program resolved. -/
structure Planning where
  number : Nat
  account : List Byte
  product : Nat
  kind : DropKind
  preset : Option Nat
  ullage : Option Nat
  ceiling : Option Nat
  adjustment : Int
  program : Nat
  deriving DecidableEq, Repr

/-- A drop entry: planning and running fields (R66, R67). -/
structure Drop where
  plan : Planning
  position : Nat
  state : DropState := .planned
  claimant : Option Chan := none
  delivered : Nat := 0
  amount : Nat := 0
  tickets : List Nat := []
  noteMark : Bool := false
  deriving DecidableEq, Repr

/-- A price line (R103): volume in cL and unit price. Its amount follows from the two. -/
structure PriceLine where
  volume : Nat
  unitPrice : Nat
  deriving DecidableEq, Repr

/-! ### Records of the journal -/

/-- The body of a TICKET record, all but the ticket number (R100, R168). -/
structure TicketBody where
  routeId : Nat
  drop : Nat
  account : List Byte
  product : Nat
  chan : Chan
  comp : Nat
  status : Status
  flags : Flags
  origin : CloseOrigin
  openTime : Nat
  authorised : Nat
  gross : Nat
  net : Nat
  temp : Int
  vcf : Nat
  mf : Nat
  fwd : Nat
  rev : Nat
  gaps : Nat
  lines : List PriceLine
  adjustment : Int
  fee : Nat
  tax : Nat
  due : Nat
  episodes : List Episode
  holdCount : Nat
  holds : List HoldEntry
  reservation : Nat
  deriving DecidableEq, Repr

/-- The body of a PROVING record (R169, R192). -/
structure ProvingBody where
  chan : Chan
  openTime : Nat
  fwd : Nat
  rev : Nat
  gross : Nat
  temp : Int
  target : Nat
  episodes : List Episode
  deriving DecidableEq, Repr

/-- The operation of a drop note (R74). -/
inductive NoteOp | skip | restore | add | cancel
  deriving DecidableEq, Repr

/-- The body of a DROP NOTE record (R74, R169). -/
structure NoteBody where
  op : NoteOp
  drop : Nat
  routeId : Nat
  plan : Option Planning
  deriving DecidableEq, Repr

/-- The body of a LOAD record (R160, R169). -/
structure LoadBody where
  comp : Nat
  product : Nat
  prevProduct : Nat
  prevBase : Nat
  prevDelivered : Nat
  added : Nat
  writtenOff : Nat
  base : Nat
  deriving DecidableEq, Repr

/-- The route totals of one product (R162). -/
structure Total where
  net : Nat := 0
  count : Nat := 0
  deriving DecidableEq, Repr

/-- The number of drops in each of the five states (R82). -/
structure StateCounts where
  planned : Nat
  partly : Nat
  delivered : Nat
  skipped : Nat
  cancelled : Nat
  deriving DecidableEq, Repr

/-- The body of a ROUTE CLOSE record (R82, R169). -/
structure RouteCloseBody where
  routeId : Nat
  totals : List Total
  counts : StateCounts
  deriving DecidableEq, Repr

/-- What an AUDIT record says changed (R189). -/
inductive Change | correction | nodeMap | station | setting (m : MetSetting) | lockoutClear
  deriving DecidableEq, Repr

/-- The two audit counters (R187). -/
inductive AuditCounter | calibration | configuration
  deriving DecidableEq, Repr

/-- The old or new value of an AUDIT record (R189): a setting's value, a table's entry count and check, or a lockout. -/
inductive AuditValue
  | setting (v : Int)
  | table (count : Nat) (check : Word16)
  | storageLockout
  | noLockout
  deriving DecidableEq, Repr

/-- The body of an AUDIT record (R189); the proving reference is the PROVING record's sequence and the observed volume. -/
structure AuditBody where
  change : Change
  counter : AuditCounter
  station : Byte
  old : AuditValue
  new : AuditValue
  provingSeq : Nat
  observed : Nat
  committed : Nat
  deriving DecidableEq, Repr

/-- The kinds of record (R168). -/
inductive RecordKind | ticket | dropNote | load | routeOpen | routeClose | audit | proving
  deriving DecidableEq, Repr

/-- The body of a record (R168, R169). -/
inductive Body
  | ticket (number : Nat) (t : TicketBody)
  | dropNote (b : NoteBody)
  | load (b : LoadBody)
  | routeOpen (id count : Nat) (unplanned : Bool) (ceiling : Option Nat)
  | routeClose (b : RouteCloseBody)
  | audit (b : AuditBody)
  | proving (b : ProvingBody)
  deriving DecidableEq, Repr

/-- A record: the common header (R168) and the body. -/
structure Record where
  seq : Nat
  time : Nat
  clockUnset : Bool
  cal : Word16
  cfg : Word16
  totA : Word32
  totB : Word32
  ticketHigh : Nat
  body : Body
  deriving DecidableEq, Repr

/-- A pending record (R100, R192): a proving record carries the metrology unit's judgement beside it. -/
inductive Built
  | ticket (t : TicketBody)
  | proving (p : ProvingBody) (sound : Bool)
  deriving DecidableEq, Repr

/-- A pending record as READ PENDING shows it: without ticket number, header or judgement (R112). -/
inductive PendingRecord
  | ticket (t : TicketBody)
  | proving (p : ProvingBody)
  deriving DecidableEq, Repr

/-! ### The non-volatile part -/

/-- Supply systems (R39). -/
inductive SupplySystem | v12 | v24
  deriving DecidableEq, Repr

/-- The settings (R39). -/
structure Settings where
  printer : Byte := 0
  cab : Byte := 0
  settleQuiet : Nat := 1500
  settleLimit : Nat := 10
  creepLimit : Nat := 50
  standbyDelay : Nat := 12
  system : SupplySystem := .v12
  lowStep : Nat := 2
  heel : Nat := 50
  maskCauses : List Cause :=
    [.tally, .metrology, .supply, .air, .valve, .creep, .silent, .probe, .reel, .program]
  maskLockout : Bool := true
  rawEcho : Bool := false
  deriving DecidableEq, Repr

/-- The metrology settings (R188). -/
structure MetSettings where
  factorA : Nat := 10000
  factorB : Nat := 10000
  offsetA : Int := 0
  offsetB : Int := 0
  jumpLimit : Nat := 1500
  reverseLimit : Nat := 200
  deriving DecidableEq, Repr

/-- The regions of the store (R23, R38); `none` is a region that fails its check. -/
structure Regions where
  settings : Option (Settings × MetSettings) := some ({}, {})
  products : Option (List ProductEntry) := none
  prices : Option (List PriceList) := none
  curves : Option (List Curve) := none
  programs : Option (List ProgramEntry) := none
  nodes : Option (List NodeEntry) := none
  stations : Option (List StationEntry) := some [{ address := 120, cls := .metrology }]
  route : Option (RouteHeader × List StagedDrop) := none
  deriving DecidableEq, Repr

/-- Why a block was retired (R166). -/
inductive RetireCause | program | erase
  deriving DecidableEq, Repr

/-- The retirement details of a block header (R166). -/
structure Retirement where
  cause : RetireCause
  newest : Nat
  lost : Nat
  failedSlot : Option Nat
  deriving DecidableEq, Repr

/-- A slot (R166); a WRITTEN slot has its drained mark beside it. -/
inductive Slot
  | erased
  | written (r : Record) (drained : Bool)
  | unreadable
  deriving DecidableEq, Repr

/-- A block of the array: its header and its 16 slots (R166). -/
structure Block where
  headerOk : Bool := true
  erases : Nat := 0
  retired : Option Retirement := none
  slots : List Slot := List.replicate 16 .erased
  deriving DecidableEq, Repr

/-- What keeps its content without power: the store's regions and the journal array (R166). -/
structure NonVolatile where
  regions : Regions := {}
  array : List Block := List.replicate 64 {}
  deriving DecidableEq, Repr

/-! ### The channel -/

/-- A KNOWN baseline (R42). -/
structure Baseline where
  fwd : Word16
  rev : Word16
  seq : Byte
  deriving DecidableEq, Repr

/-- The probe staleness timer (R53); `expired` is stopped since an expiry, so that a valid reading starts it (R52). -/
inductive StaleTimer | stopped | running | expired
  deriving DecidableEq, Repr

/-- The vapour state (R58). -/
inductive Vapour | unknown | liquid | vapour
  deriving DecidableEq, Repr

/-- The reel state (R59). -/
inductive Reel | unknown | out | stowed
  deriving DecidableEq, Repr

/-- One entry of the rate window (R57). -/
structure WindowEntry where
  gross : Nat
  elapsed : Nat
  deriving DecidableEq, Repr

/-- The channel meter (R42). The notice slot is part of `Line.cwait`. -/
structure Meter where
  baseline : Option Baseline := none
  firstTally : Bool := false
  fwd : Nat := 0
  rev : Nat := 0
  weighted : Int := 0
  gaps : Nat := 0
  mf : Nat := 10000
  offset : Int := 0
  probe : Option Int := none
  fresh : Bool := false
  stale : StaleTimer := .stopped
  window : List WindowEntry := []
  vapour : Vapour := .unknown
  reel : Reel := .unknown
  creep : Nat := 0
  creepMark : Bool := false
  totalizer : Word32 := 0
  unticketed : Nat := 0
  gapsSinceStart : Nat := 0
  noticeTimer : Bool := false
  noticePending : Bool := false
  deriving DecidableEq, Repr

/-- The phase of an outstanding order (R117). -/
inductive Phase | queued | sent
  deriving DecidableEq, Repr

/-- An outstanding order (R117). -/
structure Order where
  position : Pos
  number : Byte
  phase : Phase
  attempts : Nat
  deriving DecidableEq, Repr

/-- The valve gate (R117). Its waiting answer is part of `Line.cwait`. -/
structure Gate where
  nextOrder : Byte := 0
  position : Pos := .closed
  outstanding : Option Order := none
  timer : Bool := false
  confirmed : Bool := false
  missed : Bool := false
  requested : Option Pos := none
  limited : Bool := false
  retries : Nat := 0
  deriving DecidableEq, Repr

/-- The stop monitor (R128). `endFired`: an END action has fired in this ticket (R101, line 3). -/
structure Monitor where
  program : Option Nat := none
  countA : Nat := 0
  countB : Nat := 0
  firedA : Bool := false
  firedB : Bool := false
  guard : Bool := false
  tallies : Nat := 0
  noteSeen : Bool := false
  endFired : Bool := false
  deriving DecidableEq, Repr

/-- The drop of a delivery ticket: its planning fields as claimed, and the route id (R86). -/
structure Claimed where
  plan : Planning
  routeId : Nat
  deriving DecidableEq, Repr

/-- A ticket context (R86). `quiet` and `limit` are the settle timers with the values captured at entry to SETTLING
(ms and s); `rest` is the rest timer in ms (R142). -/
structure Ctx where
  state : CtxState := .idle
  mode : Mode := .delivery
  drop : Option Claimed := none
  comp : Option Nat := none
  product : Option Nat := none
  authorised : Nat := 0
  reservation : Nat := 0
  baseVolume : Nat := 0
  baseAmount : Nat := 0
  openTime : Nat := 0
  openUnset : Bool := true
  episodes : List Episode := []
  episodePulses : Nat := 0
  holds : List HoldEntry := []
  holdCount : Nat := 0
  causes : List Cause := []
  primary : Option Cause := none
  autoClose : Bool := false
  origin : CloseOrigin := .nothing
  requester : Option Byte := none
  retryMark : Bool := false
  quiet : Option Nat := none
  limit : Option Nat := none
  rest : Option Nat := none
  flags : Flags := {}
  pending : Option Built := none
  deriving DecidableEq, Repr

/-- The silence timer and lapse mark of one mapped node of a channel beyond IDLE (R18). -/
structure NodeTimer where
  node : Byte
  running : Bool := true
  lapsed : Bool := false
  deriving DecidableEq, Repr

/-- The values of a flow notice (R62); drop 0 and primary none as the table gives. -/
structure Notice where
  chan : Chan
  state : CtxState
  mode : Mode
  drop : Nat
  gross : Nat
  net : Nat
  temp : Int
  due : Nat
  remaining : Nat
  position : Pos
  causes : List Cause
  primary : Option Cause
  watchA : Bool
  watchB : Bool
  note : Bool
  deriving DecidableEq, Repr

/-- A PRINT frame before it has a place: destination, record, copy mark, product name (R109, R110). -/
structure Print where
  chan : Chan
  dst : Byte
  record : Record
  copy : Bool
  name : List Byte
  deriving DecidableEq, Repr

/-- One channel: ticket context, meter, gate, stop monitor, the silence timers of its nodes (empty in IDLE), its held
print, and the notice values last noted within one command (the model's own, `none` between commands). -/
structure Channel where
  ctx : Ctx := {}
  meter : Meter := {}
  gate : Gate := {}
  monitor : Monitor := {}
  silence : List NodeTimer := []
  heldPrint : Option Print := none
  noticeRef : Option Notice := none
  deriving DecidableEq, Repr

/-! ### Compartments, journal figures and replies -/

/-- A compartment record (R154). -/
structure Comp where
  product : Nat := 0
  base : Nat := 0
  delivered : Nat := 0
  reserved : Nat := 0
  loadMark : Bool := false
  deriving DecidableEq, Repr

/-- A compartment as replies show it: the record and its available volume (R161, R163). -/
structure CompView where
  comp : Comp
  available : Nat
  deriving DecidableEq, Repr

/-- Power states (R199 to R203). -/
inductive PowerState | off | starting | on | standby | shutdown
  deriving DecidableEq, Repr

/-- Supply levels; BROWN is latched (R199). -/
inductive SupplyLevel | normal | low | brown
  deriving DecidableEq, Repr

/-- Lockout (R149). -/
inductive Lockout | none | storage | reconstruction
  deriving DecidableEq, Repr

/-- The figures of the JOURNAL page (R181). -/
structure JournalPage where
  free : Nat
  undrained : Nat
  newest : Nat
  oldest : Nat
  cursor : Nat
  usable : Nat
  current : Option Nat
  unreadable : Nat
  unreadableReads : Nat
  firstNeeded : Option (Nat × Nat × Nat)
  deriving DecidableEq, Repr

/-- The counters of one port (R20). -/
structure Counters where
  check : Nat := 0
  dropped : Nat := 0
  stray : Nat := 0
  unknown : Nat := 0
  valveOrders : Nat := 0
  deriving DecidableEq, Repr

/-- One channel's figures on the CHANNEL page (R181). -/
structure ChannelFigures where
  totalizer : Word32
  unticketed : Nat
  gaps : Nat
  retries : Nat
  deriving DecidableEq, Repr

/-- The figures of STATUS (R197). -/
structure StatusInfo where
  starting : Bool
  lockout : Lockout
  stateA : CtxState
  modeA : Mode
  stateB : CtxState
  modeB : Mode
  switchOpen : Bool
  level : SupplyLevel
  ignitionOn : Bool
  routeId : Nat
  free : Nat
  undrained : Nat
  clock : Nat
  unset : Bool
  deriving DecidableEq, Repr

/-- The result of a reply, as the request's rule names it (R195). -/
inductive Result
  | nothing
  | opened (authorised reservation program : Nat)
  | provingOpened (target : Nat)
  | ticket (number : Nat)
  | sequence (seq : Nat)
  | causes (remaining : List Cause)
  | pendingRecord (state : CtxState) (origin : CloseOrigin) (record : PendingRecord)
  | routeOpened (id count : Nat)
  | routeClosed (b : RouteCloseBody)
  | dropEntry (d : Drop)
  | dropState (d : DropState)
  | totals (routeId : Nat) (totals : List Total) (comps : List CompView)
  | received (count : Nat)
  | record (r : Record) (drained retired : Bool)
  | released (marked memory cursor : Nat)
  | journalPage (p : JournalPage)
  | wearPage (average highest : Nat)
  | retirementPage (count : Nat) (last : Option (Nat × RetireCause × Nat)) (lost : Nat)
  | linePage (f c : Counters)
  | channelPage (a b : ChannelFigures)
  | loaded (seq : Nat) (view : CompView)
  | audited (seq : Nat) (counter : Word16)
  | counter (value : Word16)
  | proposed (factor inForce pulses : Nat) (temp : Int) (seq : Nat)
  | computed (factor : Nat)
  | committed (records : List (Chan × Nat))
  | cleared (records : List (Chan × Nat)) (audit : Nat)
  | status (i : StatusInfo)
  | clock (seconds : Nat) (unset : Bool)
  deriving DecidableEq, Repr

/-! ### The line -/

/-- A REPLY frame (R195); `refusal` none is DONE. -/
structure Reply where
  dst : Byte
  seq : Byte
  code : Byte
  refusal : Option RefCode
  result : Result
  deriving DecidableEq, Repr

/-- A cab-bound VALVE ANSWER frame (R122); `reason` none is ACCEPTED. -/
structure Answer where
  chan : Chan
  dst : Byte
  seq : Byte
  position : Pos
  number : Byte
  reason : Option RefCode
  deriving DecidableEq, Repr

/-- A frame of the F-bound queue: forwarded, or a valve order of the part (R13). -/
inductive FFrame
  | fwd (f : Frame)
  | order (c : Chan) (dst seq : Byte) (position : Pos) (number : Byte)
  deriving DecidableEq, Repr

/-- A frame of the C-bound queue or waiting for it: the five sorts of 1.7. -/
inductive CFrame
  | fwd (f : Frame)
  | notice (dst seq : Byte) (n : Notice)
  | print (seq : Byte) (p : Print)
  | reply (r : Reply)
  | answer (a : Answer)
  deriving DecidableEq, Repr

/-- A place of the C-bound queue in use: common, or reserved for answer frames (R15). -/
structure CEntry where
  frame : CFrame
  reserved : Bool
  deriving DecidableEq, Repr

/-- The line interface (R4, R13 to R17, R20). Queues stand in the order in which they are sent but for CLOSED orders
(R14); `cwait` holds the frames waiting for a place, oldest first, each in the slot of its originator. -/
structure Line where
  fq : List FFrame := []
  fline : Option FFrame := none
  fseq : Byte := 0
  fcnt : Counters := {}
  cq : List CEntry := []
  cline : Option CFrame := none
  cseq : Byte := 0
  ccnt : Counters := {}
  cwait : List CFrame := []
  deriving DecidableEq, Repr

/-! ### The other blocks -/

/-- Where STARTING stands (R202): before the store read completes, held by BROWN at step 2, or reconstructing. -/
inductive StartPhase | reading | heldBrown | reconstructing
  deriving DecidableEq, Repr

/-- The supply monitor (R198 to R202). -/
structure Power where
  state : PowerState := .off
  phase : StartPhase := .reading
  level : SupplyLevel := .normal
  clock : Nat := 0
  unset : Bool := true
  standby : Option Nat := none
  budget : Nat := 0
  deriving DecidableEq, Repr

/-- The input signals: supply sense in mV, ignition sense, metrology switch. -/
structure Pins where
  voltage : Nat := 0
  ignitionOn : Bool := false
  switchOpen : Bool := false
  deriving DecidableEq, Repr

/-- Route states (R65). -/
inductive RouteState | none | opened | closing
  deriving DecidableEq, Repr

/-- The route table (R65 to R67). Additions in flight are found among the appends (R74). -/
structure Route where
  state : RouteState := .none
  header : Option RouteHeader := none
  drops : List Drop := []
  deriving DecidableEq, Repr

/-- The compartment table: compartments 1 to 4 and the route totals of products 1 to 8 (R154, R162). -/
structure Comps where
  list : List Comp := List.replicate 4 {}
  totals : List Total := List.replicate 8 {}
  deriving DecidableEq, Repr

/-- What a staging area that is not EMPTY holds (R28); the received count is the number of entries. -/
structure Load where
  holder : Byte
  kind : TableKind
  declared : Nat
  entries : List Entry
  deriving DecidableEq, Repr

/-- The staging area (R28). -/
inductive Staging
  | empty
  | filling (l : Load)
  | activating (l : Load)
  deriving DecidableEq, Repr

/-- A table or route region write in progress: the requesting station, and the committed AUDIT record's sequence and
counter for a metrology change (R35, R189). -/
structure TableWrite where
  station : Byte
  audit : Option (Nat × Word16)
  deriving DecidableEq, Repr

/-- The value a settings write carries anew (R39, R189). -/
inductive SettingChange
  | office (s : Setting) (v : Int)
  | metrology (m : MetSetting) (v : Int)
  deriving DecidableEq, Repr

/-- A settings region write (R39, R189); `factor` marks an APPLY FACTOR (R194). -/
structure SettingsWrite where
  station : Byte
  change : SettingChange
  audit : Option (Nat × Word16)
  factor : Bool
  deriving DecidableEq, Repr

/-- The table store's working memory (R23, R28, R39). -/
structure Store where
  settings : Settings := {}
  metset : MetSettings := {}
  products : Option (List ProductEntry) := none
  prices : Option (List PriceList) := none
  curves : Option (List Curve) := none
  programs : List (Option StopProgram)
  nodes : Option (List NodeEntry) := none
  stations : Option (List StationEntry) := none
  routeRegion : Option (RouteHeader × List StagedDrop) := none
  staging : Staging := .empty
  tableWrite : Option TableWrite := none
  settingsWrites : List SettingsWrite := []
  deriving DecidableEq, Repr

/-- The state of a journal block (R166). -/
inductive BlockState | erased | current | filled | erasing | unsettled | retired
  deriving DecidableEq, Repr

/-- One row of the block table (R167); the write point is that of the CURRENT block. -/
structure BlockInfo where
  state : BlockState
  erases : Nat
  writePoint : Nat
  deriving DecidableEq, Repr

/-- One row of the record index (R167). -/
structure IndexEntry where
  seq : Nat
  kind : RecordKind
  block : Nat
  slot : Nat
  drained : Bool
  deriving DecidableEq, Repr

/-- One append (R170): a channel's pending record, a management record of a station's request, or a drained mark. -/
inductive Append
  | close (c : Chan)
  | manage (station : Byte) (body : Body)
  | mark (seq : Nat)
  deriving DecidableEq, Repr

/-- What the array is programming (R170, R173, R179). -/
inductive Busy
  | idle
  | programming (a : Append) (r : Record) (block slot : Nat) (retry : Bool)
  | marking (seq block slot : Nat) (second : Bool)
  deriving DecidableEq, Repr

/-- The RELEASE THROUGH being run (R179). -/
structure Release where
  station : Byte
  target : Nat
  marked : Nat
  memory : Nat
  deriving DecidableEq, Repr

/-- A slot read asked for by READ RECORD or REPRINT (R178, R111). -/
structure Read where
  station : Byte
  seq : Nat
  reprint : Bool
  deriving DecidableEq, Repr

/-- The journal controller's working memory (R167, R181). -/
structure Journal where
  blocks : List BlockInfo := []
  index : List IndexEntry := []
  newestSeq : Nat := 0
  newestTicket : Nat := 0
  routeAnchor : Option Nat := none
  compAnchors : List (Option Nat) := [none, none, none, none]
  waiting : List Append := []
  busy : Busy := .idle
  erasing : Option Nat := none
  release : Option Release := none
  memDrains : List Nat := []
  reads : List Read := []
  lastRetired : Option (Nat × RetireCause × Nat) := none
  lostTotal : Nat := 0
  unreadable : Nat := 0
  unreadableReads : Nat := 0
  firstNeeded : Option (Nat × Nat × Nat) := none
  deriving DecidableEq, Repr

/-- A request in progress (R195). -/
structure InProgress where
  station : Byte
  code : Byte
  seq : Byte
  cls : Cls
  deriving DecidableEq, Repr

/-- The request unit (R195); `restart` is an accepted RESTART and whether its reply has been sent (R203). -/
structure Requests where
  inProgress : List InProgress := []
  restart : Option Bool := none
  deriving DecidableEq, Repr

/-- A proving result (R187, R192). -/
structure ProvingResult where
  seq : Nat
  pulses : Nat
  temp : Int
  deriving DecidableEq, Repr

/-- A proposal (R187, R193). -/
structure Proposal where
  chan : Chan
  factor : Nat
  seq : Nat
  observed : Nat
  deriving DecidableEq, Repr

/-- The metrology unit (R187). Its settings stand with the store's, the switch with the pins. -/
structure Metrology where
  cal : Word16 := 0
  cfg : Word16 := 0
  resultA : Option ProvingResult := none
  resultB : Option ProvingResult := none
  proposal : Option Proposal := none
  deriving DecidableEq, Repr

/-- A CLEAR LOCKOUT in progress: its station and the records committed so far (R152). -/
structure Clearing where
  station : Byte
  committed : List (Chan × Nat)
  deriving DecidableEq, Repr

/-- The ticket controller as a whole: lockout, the FAULTED channels oldest first, a CLEAR LOCKOUT in progress, and the
alert line (R146, R149, R152). -/
structure Control where
  lockout : Lockout := .none
  faultOrder : List Chan := []
  clearing : Option Clearing := none
  alert : Bool := false
  deriving DecidableEq, Repr

/-- The state of the part. `free` counts the free values taken (notes/assumptions/12.md); `pending` is the queue of
commands waiting, first in, first out. -/
structure State where
  power : Power := {}
  pins : Pins := {}
  line : Line := {}
  chA : Channel := {}
  chB : Channel := {}
  route : Route := {}
  comps : Comps := {}
  store : Store
  journal : Journal := {}
  req : Requests := {}
  met : Metrology := {}
  ctl : Control := {}
  nv : NonVolatile := {}
  free : Nat := 0
  pending : List Instr := []
  deriving DecidableEq, Repr

/-- The reasons a step can stop with a fault: none. No rule of the spec stops the part; what it calls faults are states
it goes on in. -/
inductive Fault
  deriving DecidableEq, Repr

/-- The reasons a step can be refused. -/
inductive Refusal
  /-- Raised by an arm of `exec` whose command has no meaning yet, under the command's mnemonic; safe. No arm of this
  model raises it. -/
  | notModelled (mnemonic : String)
  deriving DecidableEq, Repr

/-- The factory contents of program 0 (R135). -/
def factoryProgram0 : StopProgram where
  watchA := { quantity := .net, relation := .atOrAbove, reference := .fromAuthorised, value := 2000,
              persistence := 0, action := .slow }
  watchB := { quantity := .net, relation := .atOrAbove, reference := .fromAuthorised, value := 0,
              persistence := 0, action := .endDelivery }
  mode := .sequence

/-- The factory contents of program 1 (R135). -/
def factoryProgram1 : StopProgram where
  watchA := { quantity := .net, relation := .atOrAbove, reference := .fromAuthorised, value := 4000,
              persistence := 0, action := .slow }
  watchB := { quantity := .rate, relation := .below, reference := .absolute, value := 15,
              persistence := 5, action := .endDelivery }
  mode := .independent

/-- The stop programs of a part whose STOP PROGRAM region fails its check (R38, R135). -/
def factoryPrograms : List (Option StopProgram) :=
  [some factoryProgram0, some factoryProgram1, none, none, none, none, none, none]

/-- The state right after reset: OFF, as the part leaves the factory (R38, R202), with every block at its power-on
values. notes/assumptions/4.md, 5.md, 6.md, 7.md, 12.md, 47.md name the values the spec does not give. -/
def State.reset : State := { store := { programs := factoryPrograms } }

end Sys2Proof.Machine
end

