-- ==== Sys2Proof/Config.lean ====
section
/-! DEFINITION. The free values: what the spec leaves open, as constants without a body. Nothing in Lean can evaluate
them or prove a value of them, so a claim that holds of the model holds for every value the hardware may give. -/
namespace Sys2Proof

/-- The bytes of a table entry. Each kind has a fixed entry form (R30) whose bytes the spec does not lay out; the check
over the entries that an AUDIT record carries (R189) is computed over them. notes/assumptions/10.md -/
opaque Config.entryBytes : Entry → List Byte

/-- The command that the payload of a raw REQUEST frame spells, where its arguments read: the spec names the arguments
of each request and does not lay out their bytes. notes/assumptions/10.md -/
opaque Config.requestOf : List Byte → Option Instr

/-- What a field of the given greatest value shows when the exact value is greater and the spec says neither that the
field stops nor that it wraps. notes/assumptions/11.md -/
opaque Config.beyond : (greatest exact : Nat) → Nat

/-- What a signed field of `bytes` bytes shows when the exact value does not fit it; the spec gives no rule for that.
notes/assumptions/11.md -/
opaque Config.beyondSigned : (bytes : Nat) → (exact : Int) → Int

/-- The result bytes of a reply: the spec names what each result carries and does not lay out its bytes.
notes/assumptions/10.md -/
opaque Config.resultBytes : Machine.Result → List Byte

/-- The body bytes of a record of another kind than TICKET: the spec names the fields (R169) and does not lay out their
bytes. notes/assumptions/10.md -/
opaque Config.bodyBytes : Machine.Body → List Byte

/-- What slot `slot` holds after an erase that was abandoned or failed, for the `n`-th such value taken.
notes/assumptions/12.md -/
opaque Config.eraseLeft : (n slot : Nat) → SlotLeft

/-- The erase count taken for a block whose header fails its check when no other usable block has a count (R182).
notes/assumptions/33.md -/
opaque Config.noEraseCount : Nat

/-- The volume correction factor at a temperature when the product's curve is not loaded, which the checks of R33 and
R38 keep from happening. notes/assumptions/34.md -/
opaque Config.noCurveFactor : Int → Nat

end Sys2Proof
end

