-- ==== Sys2Proof/Machine/Operands.lean ====
section
/-! DEFINITION. The operand forms: byte order, the check, frames and their payloads as the Reel Line chapter lays them
out, and the byte layouts the spec gives for what the part sends (flow notice, valve order, valve answer, TICKET record,
PRINT). -/
namespace Sys2Proof.Machine

/-! ### Fields -/

/-- A value kept in a field whose greatest value is `greatest`: the exact value where it fits; otherwise a free value
within the field, where the spec gives the range and no rule for passing it. -/
def within (greatest exact : Nat) : Nat :=
  if exact ≤ greatest then exact else Config.beyond greatest exact % (greatest + 1)

/-- A count that stops at its top (R20, R42, R117, R128). -/
def stopAt (top exact : Nat) : Nat := min top exact

/-- The greatest value of a four-byte count (R42). -/
def top32 : Nat := 4294967295

/-- The low byte of a word. -/
def lowByte (w : Word16) : Byte := w.extractLsb' 0 8

/-- The high byte of a word. -/
def highByte (w : Word16) : Byte := w.extractLsb' 8 8

/-- The word of a low and a high byte: multi-byte fields are little-endian (1.2). -/
def word (low high : Byte) : Word16 := high ++ low

/-- `n` bytes of a number, least significant first (1.2). -/
def leBytes : Nat → Nat → List Byte
  | 0, _ => []
  | n + 1, v => BitVec.ofNat 8 v :: leBytes n (v / 256)

/-- A field of `n` bytes. -/
def field (n v : Nat) : List Byte := leBytes n (within (256 ^ n - 1) v)

/-- A value kept in a signed field of `n` bytes: the exact value where it fits, otherwise a free value.
notes/assumptions/11.md -/
def withinSigned (n : Nat) (exact : Int) : Int :=
  if -(2 : Int) ^ (8 * n - 1) ≤ exact ∧ exact < (2 : Int) ^ (8 * n - 1) then exact else Config.beyondSigned n exact

/-- A signed field of `n` bytes, in two's complement (R168). -/
def signedField (n : Nat) (v : Int) : List Byte := leBytes n (BitVec.ofInt (8 * n) (withinSigned n v)).toNat

/-! ### The check -/

/-- One bit of the check: generator 0x1021, most significant bit first (R3). -/
def checkBit (r : Word16) : Word16 := if r.msb then (r <<< 1) ^^^ 0x1021#16 else r <<< 1

/-- One byte of the check (R3). -/
def checkByte (r : Word16) (b : Byte) : Word16 :=
  checkBit (checkBit (checkBit (checkBit (checkBit (checkBit (checkBit (checkBit (r ^^^ (b.setWidth 16 <<< 8)))))))))

/-- The 16-bit check of a list of bytes: register preset to 0xFFFF, no final inversion (R3). -/
def check16 (bytes : List Byte) : Word16 := bytes.foldl checkByte 0xFFFF#16

/-! ### Frames -/

/-- The header and payload of a frame (1.2). -/
def frameBody (f : Frame) : List Byte :=
  f.dst :: f.src :: f.kind :: f.seq :: BitVec.ofNat 8 f.payload.length :: f.payload

/-- The bytes of a frame on the line: header, payload and check, the check low byte first (1.2, R3). -/
def frameBytes (f : Frame) : List Byte :=
  frameBody f ++ [lowByte (check16 (frameBody f)), highByte (check16 (frameBody f))]

/-- The address tests of R2 (tests 3 and 4) and a payload the length byte can give. -/
def frameOk (f : Frame) : Bool :=
  f.dst.toNat ≤ 127 && 1 ≤ f.src.toNat && f.src.toNat ≤ 126 && f.payload.length ≤ 255

/-- The frame that an assembled run of bytes is, or none where one of the four tests of R2 fails. -/
def parseFrame (bytes : List Byte) : Option Frame :=
  match bytes with
  | d :: s :: k :: q :: l :: rest =>
    let f : Frame := { dst := d, src := s, kind := k, seq := q, payload := rest.take l.toNat }
    if bytes.length = l.toNat + 7 ∧ bytes = frameBytes f ∧ frameOk f then some f else none
  | _ => none

def kindTally : Byte := 0x11
def kindProbe : Byte := 0x12
def kindContact : Byte := 0x13
def kindValveOrder : Byte := 0x21
def kindValveAnswer : Byte := 0x22
def kindFlowNotice : Byte := 0x31
def kindPrint : Byte := 0x32
def kindRequest : Byte := 0x41
def kindReply : Byte := 0x42

/-- A TALLY's forward total, reverse total and elapsed time, where the form check of R5 passes. -/
def tallyOf : List Byte → Option (Word16 × Word16 × Nat)
  | [f0, f1, r0, r1, e0, e1] =>
    let elapsed := (word e0 e1).toNat
    if 1 ≤ elapsed ∧ elapsed ≤ 5000 then some (word f0 f1, word r0 r1, elapsed) else none
  | _ => none

/-- A PROBE's temperature and whether its status is OK, where the form check of R5 passes. -/
def probeOf : List Byte → Option (Int × Bool)
  | [t0, t1, st] =>
    if st = 0 then some ((word t0 t1).toInt, true)
    else if st = 1 then some ((word t0 t1).toInt, false)
    else none
  | _ => none

/-- A VAPOUR node's CONTACT, where the form check of R5 passes. -/
def vapourOf : List Byte → Option Vapour
  | [c] => if c = 0 then some .liquid else if c = 1 then some .vapour else none
  | _ => none

/-- A REEL node's CONTACT, where the form check of R5 passes. -/
def reelOf : List Byte → Option Reel
  | [c] => if c = 2 then some .out else if c = 3 then some .stowed else none
  | _ => none

/-- A valve position's code (R5). -/
def posOf (b : Byte) : Option Pos :=
  if b = 0 then some .closed else if b = 1 then some .slow else if b = 2 then some .full else none

/-- The code of a valve position (R5). -/
def posCode : Pos → Nat
  | .closed => 0
  | .slow => 1
  | .full => 2

/-- Position and order number of a VALVE ORDER or of a node's VALVE ANSWER, where the form check of R5 passes. -/
def positionAndNumber : List Byte → Option (Pos × Byte)
  | [p, n] => (posOf p).map fun x => (x, n)
  | _ => none

/-- The payload of a TALLY (1.3). -/
def tallyPayload (fwd rev elapsed : Word16) : List Byte :=
  [lowByte fwd, highByte fwd, lowByte rev, highByte rev, lowByte elapsed, highByte elapsed]

/-- The payload of a PROBE (1.3). -/
def probePayload (temp : Word16) (status : Byte) : List Byte := [lowByte temp, highByte temp, status]

/-- The role that sends a kind of sensor frame (R8). -/
def roleSends (r : Role) (kind : Byte) : Bool :=
  match r with
  | .tally => kind = kindTally
  | .probe => kind = kindProbe
  | .vapour => kind = kindContact
  | .reel => kind = kindContact
  | .valve => false

/-! ### What the part sends -/

/-- The value of a refusal code (11.2). -/
def refValue : RefCode → Nat
  | .state => 1
  | .cls => 2
  | .notFound => 3
  | .argument => 4
  | .busy => 5
  | .inUse => 6
  | .table => 7
  | .journalFull => 8
  | .lockout => 9
  | .storage => 10
  | .limit => 11
  | .hold => 12
  | .reel => 13
  | .episodes => 14
  | .metrology => 15

/-- The rank of a cause (R137). -/
def rank : Cause → Nat
  | .tally => 1
  | .metrology => 2
  | .supply => 3
  | .air => 4
  | .valve => 5
  | .creep => 6
  | .silent => 7
  | .probe => 8
  | .reel => 9
  | .program => 10

/-- The code of a channel (R62, R168). -/
def chanCode : Chan → Nat
  | .a => 1
  | .b => 2

/-- The code of a context's state (R62). -/
def stateCode : CtxState → Nat
  | .idle => 0
  | .armed => 1
  | .flowing => 2
  | .settling => 3
  | .paused => 4
  | .held => 5
  | .closing => 6
  | .faulted => 7

/-- A flag's bit. -/
def bit (b : Bool) (n : Nat) : Nat := if b then 2 ^ n else 0

/-- The bits of a cause set, rank 1 least significant (R62). -/
def causeBits (cs : List Cause) : Nat := (cs.map fun c => 2 ^ (rank c - 1)).sum

/-- The 25 payload bytes of a flow notice (R62). -/
def noticePayload (n : Notice) : List Byte :=
  field 1 (chanCode n.chan) ++ field 1 (stateCode n.state) ++
  field 1 (match n.mode with | .delivery => 0 | .proving => 1) ++
  field 2 n.drop ++ field 3 n.gross ++ field 3 n.net ++ signedField 2 n.temp ++ field 4 n.due ++
  field 3 n.remaining ++ field 1 (posCode n.position) ++ field 2 (causeBits n.causes) ++
  field 1 (match n.primary with | none => 0 | some c => rank c) ++
  field 1 (bit n.watchA 0 + bit n.watchB 1 + bit n.note 2)

/-- A valve order of the part, as a frame (1.3, R118). -/
def orderFrame (dst seq : Byte) (p : Pos) (number : Byte) : Frame :=
  { dst := dst, src := 0, kind := kindValveOrder, seq := seq, payload := [BitVec.ofNat 8 (posCode p), number] }

/-- A flow notice, as a frame (R62). -/
def noticeFrame (dst seq : Byte) (n : Notice) : Frame :=
  { dst := dst, src := 0, kind := kindFlowNotice, seq := seq, payload := noticePayload n }

/-- A cab-bound valve answer, as a frame (1.3, R122). -/
def answerFrame (a : Answer) : Frame :=
  { dst := a.dst, src := 0, kind := kindValveAnswer, seq := a.seq,
    payload := [BitVec.ofNat 8 (posCode a.position), a.number,
      (match a.reason with | none => 0 | some _ => 1),
      BitVec.ofNat 8 (match a.reason with | none => 0 | some r => refValue r)] }

/-- The three payload bytes of a reply before its result (1.3, R195). -/
def replyHead (r : Reply) : List Byte :=
  [r.code, (match r.refusal with | none => 0 | some _ => 1),
   BitVec.ofNat 8 (match r.refusal with | none => 0 | some x => refValue x)]

/-- The result bytes of a reply: none where the request's rule names no result, otherwise what the length byte leaves
room for (1.3, notes/assumptions/10.md). -/
def resultPayload : Result → List Byte
  | .nothing => []
  | r => (Config.resultBytes r).take 252

/-- A reply, as a frame (1.3, R195). -/
def replyFrame (r : Reply) : Frame :=
  { dst := r.dst, src := 0, kind := kindReply, seq := r.seq, payload := replyHead r ++ resultPayload r.result }

/-! ### Records (R168, R169) -/

/-- The kind of a record's body (R168). -/
def bodyKind : Body → RecordKind
  | .ticket _ _ => .ticket
  | .dropNote _ => .dropNote
  | .load _ => .load
  | .routeOpen _ _ _ _ => .routeOpen
  | .routeClose _ => .routeClose
  | .audit _ => .audit
  | .proving _ => .proving

/-- The code of a record kind (R168). -/
def kindCode : RecordKind → Nat
  | .ticket => 1
  | .dropNote => 2
  | .load => 3
  | .routeOpen => 4
  | .routeClose => 5
  | .audit => 6
  | .proving => 7

/-- The code of a status (R168). -/
def statusCode : Status → Nat
  | .complete => 1
  | .short => 2
  | .interrupted => 3
  | .void => 4

/-- The code of a close origin (R168); NONE, which no built record has, is 0. -/
def originCode : CloseOrigin → Nat
  | .nothing => 0
  | .request => 1
  | .auto => 2
  | .lockout => 3
  | .shutdown => 4

/-- The code of an end cause (R168). -/
def endCauseCode : EndCause → Nat
  | .driver => 1
  | .program => 2
  | .guard => 3
  | .endAction => 4
  | .hold => 5
  | .shutdown => 6

/-- The ticket flags' byte (R168). -/
def flagBits (f : Flags) : Nat :=
  bit f.clamped 0 + bit f.overrun 1 + bit f.creepSeen 2 + bit f.tallyGaps 3 + bit f.clockUnset 4

/-- One episode of 7 bytes (R168). -/
def episodeBytes (e : Episode) : List Byte :=
  field 3 e.startNet ++ field 3 (e.endNet.getD 0) ++
  field 1 ((match e.cause with | none => 0 | some c => endCauseCode c) + bit e.note 3 + bit e.noFlow 4)

/-- One hold entry of 5 bytes (R168). -/
def holdBytes (h : HoldEntry) : List Byte :=
  field 1 (rank h.primary + 16 * posCode h.position) ++ field 3 h.net ++ [h.node]

/-- One price line of 6 bytes (R168). -/
def lineBytes (l : PriceLine) : List Byte := field 3 l.volume ++ field 3 l.unitPrice

/-- A list of entries in its place of `n` bytes; entries beyond the list are 0 (R168). -/
def listBytes (n : Nat) (bytes : List Byte) : List Byte := (bytes ++ List.replicate n 0).take n

/-- Bytes 0 to 25 of a record: the header as the TICKET layout places it (R168). -/
def headerBytes (r : Record) : List Byte :=
  field 1 (kindCode (bodyKind r.body)) ++ field 4 r.seq ++ field 4 r.time ++ field 1 (bit r.clockUnset 0) ++
  field 2 r.cal.toNat ++ field 2 r.cfg.toNat ++ field 4 r.totA.toNat ++ field 4 r.totB.toNat ++ field 4 r.ticketHigh

/-- Bytes 26 to 221 of a TICKET record (R168). -/
def ticketBytes (number : Nat) (t : TicketBody) : List Byte :=
  field 4 number ++ field 4 t.routeId ++ field 2 t.drop ++ listBytes 10 t.account ++
  field 1 t.product ++ field 1 (chanCode t.chan) ++ field 1 t.comp ++ field 1 (statusCode t.status) ++
  field 1 (flagBits t.flags) ++ field 1 (originCode t.origin) ++ field 4 t.openTime ++ field 3 t.authorised ++
  field 3 t.gross ++ field 3 t.net ++ signedField 2 t.temp ++ field 2 t.vcf ++ field 2 t.mf ++
  field 4 t.fwd ++ field 4 t.rev ++ field 2 t.gaps ++ field 1 t.lines.length ++
  listBytes 24 (t.lines.flatMap lineBytes) ++ signedField 4 t.adjustment ++ field 3 t.fee ++ field 4 t.tax ++
  field 4 t.due ++ field 1 t.episodes.length ++ listBytes 56 (t.episodes.flatMap episodeBytes) ++
  field 1 t.holdCount ++ listBytes 40 (t.holds.flatMap holdBytes) ++ field 3 t.reservation

/-- Bytes 26 to 221 of a record: laid out for a TICKET, free bytes with zeros after them for the other kinds (R168, R169,
notes/assumptions/10.md). -/
def bodyBytes : Body → List Byte
  | .ticket number t => ticketBytes number t
  | b => listBytes 196 (Config.bodyBytes b)

/-- Bytes 0 to 221 of a record (R168). -/
def recordContent (r : Record) : List Byte := headerBytes r ++ bodyBytes r.body

/-- The 224 bytes of a record, its check last, low byte first (R168). -/
def recordBytes (r : Record) : List Byte :=
  recordContent r ++ [lowByte (check16 (recordContent r)), highByte (check16 (recordContent r))]

/-- A PRINT frame: the record, the copy mark, the product's name (1.3, R109). -/
def printFrame (seq : Byte) (p : Print) : Frame :=
  { dst := p.dst, src := 0, kind := kindPrint, seq := seq,
    payload := recordBytes p.record ++ [if p.copy then 1 else 0] ++ listBytes 12 p.name }

/-! ### What stands on the line (R1, R3, R4) -/

/-- The frame that a place of the F-bound queue holds: a forwarded one as it arrived, a valve order as the part forms it. -/
def frameF : FFrame → Frame
  | .fwd f => f
  | .order _ dst seq p number => orderFrame dst seq p number

/-- The frame that a place of the C-bound queue holds: a forwarded one as it arrived, the others as the part forms them. -/
def frameC : CFrame → Frame
  | .fwd f => f
  | .notice dst seq n => noticeFrame dst seq n
  | .print seq p => printFrame seq p
  | .reply r => replyFrame r
  | .answer a => answerFrame a

end Sys2Proof.Machine
end

