-- ==== Sys2Proof/Machine/Flags.lean ====
section
/-! DEFINITION. Cause sets, the alert rule, ticket flags and the ticket status. -/
namespace Sys2Proof.Machine

/-- The ten causes in rank order (R137). -/
def allCauses : List Cause :=
  [.tally, .metrology, .supply, .air, .valve, .creep, .silent, .probe, .reel, .program]

/-- A cause set with a group joined: each cause at most once, in rank order (R137, R139). -/
def joinCauses (group set : List Cause) : List Cause := allCauses.filter fun c => set.contains c || group.contains c

/-- The primary cause of a group: its highest-ranked cause (R139). -/
def primaryOf (group : List Cause) : Option Cause := allCauses.find? fun c => group.contains c

/-- TALLY and METROLOGY are non-resumable (R137). -/
def nonResumable (c : Cause) : Bool := c = .tally || c = .metrology

/-- The metering states (R42). -/
def metering : CtxState → Bool
  | .armed | .flowing | .settling | .paused | .held => true
  | .idle | .closing | .faulted => false

/-- The states in which the creep count runs (R60). -/
def creeping : CtxState → Bool
  | .armed | .paused | .held => true
  | .idle | .flowing | .settling | .closing | .faulted => false

/-- The level of the alert line (R146): a masked cause on either channel, or lockout under its flag; released at OFF. -/
def alertRule (s : State) : Bool :=
  s.power.state != .off &&
    (s.store.settings.maskCauses.any (fun c => s.chA.ctx.causes.contains c || s.chB.ctx.causes.contains c)
      || (s.ctl.lockout != .none && s.store.settings.maskLockout))

/-- A ticket's status (R101). -/
def statusRule (pulses : Nat) (origin : CloseOrigin) (causes : List Cause) (guard endFired : Bool)
    (kind : DropKind) (preset base net : Nat) : Status :=
  if pulses = 0 then .void
  else if origin = .lockout || origin = .shutdown || causes.any nonResumable then .interrupted
  else if guard || endFired || (kind = .preset && decide (preset * 100 ≤ base + net + 100)) then .complete
  else .short

/-- The flags of a built ticket record (R102). -/
def ticketFlags (f : Flags) (clampedNow : Bool) (net authorised overrunLitres gaps : Nat) (unsetNow : Bool) : Flags :=
  { clamped := clampedNow
    overrun := decide (authorised + overrunLitres * 100 < net)
    creepSeen := f.creepSeen
    tallyGaps := gaps != 0
    clockUnset := f.clockUnset || unsetNow }

/-- The three checks of R192 that make a proving run disturbed, negated. -/
def soundRule (origin : CloseOrigin) (causes : List Cause) (pulses : Nat) : Bool :=
  !(origin = .lockout || origin = .shutdown || causes.any nonResumable || pulses = 0)

end Sys2Proof.Machine
end

