-- ==== Sys2Proof/Machine/Figures.lean ====
section
/-! DEFINITION. The figures of a ticket: pulses, gross, temperature, correction, net, rate and price, computed anew from
the sums each time they are needed (R42, R51 to R57, R103 to R105), and the authorised volume (R89). -/
namespace Sys2Proof.Machine

/-! ### Access to the channel and the tables -/

/-- The channel `c`. -/
def State.ch (s : State) : Chan → Channel
  | .a => s.chA
  | .b => s.chB

/-- The entries of a table that may be EMPTY. -/
def entriesOf {α : Type} (t : Option (List α)) : List α := t.getD []

/-- The active product entry of a code. -/
def productOf (s : State) (code : Nat) : Option ProductEntry :=
  (entriesOf s.store.products).find? fun e => e.code = code

/-- The tiers of a product's active price list; none where it has no list. -/
def tiersOf (s : State) (code : Nat) : List Tier :=
  match (entriesOf s.store.prices).find? fun e => e.code = code with
  | some e => e.tiers
  | none => []

/-- The factors of an active curve. -/
def curveOf (s : State) (number : Nat) : Option (List Nat) :=
  ((entriesOf s.store.curves).find? fun e => e.number = number).map Curve.factors

/-- The node of a role on a channel in the active node map (R6). -/
def nodeOf (s : State) (c : Chan) (r : Role) : Option NodeEntry :=
  (entriesOf s.store.nodes).find? fun e => e.chan = c && e.role = r

/-- A channel with a node in each of the five roles (R6). -/
def complete (s : State) (c : Chan) : Bool :=
  [Role.tally, .probe, .vapour, .reel, .valve].all fun r => (nodeOf s c r).isSome

/-- The contents of a stop program, none where it is empty (R27). -/
def programOf (s : State) (n : Nat) : Option StopProgram := (s.store.programs[n]?).getD none

/-- A channel's meter factor in force (R188). -/
def factorInForce (m : MetSettings) : Chan → Nat
  | .a => m.factorA
  | .b => m.factorB

/-- A channel's probe offset in force (R188). -/
def offsetInForce (m : MetSettings) : Chan → Int
  | .a => m.offsetA
  | .b => m.offsetB

/-! ### Pulses, gross, temperature, net, rate -/

/-- The pulse quantity P: forward minus reverse, 0 when the reverse pulses are the greater (R51). -/
def pulses (m : Meter) : Nat := m.fwd - m.rev

/-- A ticket has counted pulses when its forward or reverse pulses are not zero (R42). -/
def counted (m : Meter) : Bool := m.fwd != 0 || m.rev != 0

/-- The gross in cL (R51). -/
def grossOf (m : Meter) : Nat := pulses m * m.mf / 10000

/-- The current corrected temperature: the probe reading, 150 in its place while none is held, plus the applied offset
(R54). -/
def corrected (m : Meter) : Int := m.probe.getD 150 + m.offset

/-- The temperature of a notice in IDLE: the current corrected temperature, or 150 when no reading is held (R62). -/
def idleTemp (m : Meter) : Int := if m.probe.isSome then corrected m else 150

/-- The average temperature: the weighted sum over P, rounded toward zero (R54). -/
def averageTemp (m : Meter) : Int :=
  if pulses m = 0 then corrected m else Int.tdiv m.weighted (pulses m)

/-- The volume correction factor of a curve at a temperature, and whether the computation clamps (R55). -/
def vcfOf (factors : List Nat) (t : Int) : Nat × Bool :=
  if t < -300 then (factors.getD 0 0, true)
  else if 450 < t then (factors.getD 15 0, true)
  else
    let i := ((t + 300) / 50).toNat
    let v0 : Int := factors.getD i 0
    if i = 15 then (v0.toNat, false)
    else
      let v1 : Int := factors.getD (i + 1) 0
      ((v0 + (v1 - v0) * (t + 300 - 50 * i) / 50).toNat, false)

/-- The factor for a product at a temperature, read from the curve that the product table names (R55). -/
def productVcf (s : State) (product : Nat) (t : Int) : Nat × Bool :=
  match (productOf s product).bind fun e => curveOf s e.curve with
  | some factors => vcfOf factors t
  | none => (Config.noCurveFactor t, false)

/-- Net from gross and factor (R56). -/
def netOf (gross vcf : Nat) : Nat := gross * vcf / 10000

/-- The live gross of a channel (R51). -/
def liveGross (s : State) (c : Chan) : Nat := grossOf (s.ch c).meter

/-- The live net of a channel (R56); 0 for a proving run. -/
def liveNet (s : State) (c : Chan) : Nat :=
  match (s.ch c).ctx.mode, (s.ch c).ctx.product with
  | .delivery, some p => netOf (liveGross s c) (productVcf s p (averageTemp (s.ch c).meter)).1
  | _, _ => 0

/-- The figure that episodes and hold entries record: net, or gross for a proving run (R92, R141). -/
def liveFigure (s : State) (c : Chan) : Nat :=
  match (s.ch c).ctx.mode with
  | .delivery => liveNet s c
  | .proving => liveGross s c

/-- A tally's entry of the rate window (R57). -/
def windowEntry (m : Meter) (fwd rev elapsed : Nat) : WindowEntry :=
  { gross := (fwd - rev) * m.mf / 10000, elapsed := elapsed }

/-- The rate window with an entry pushed: a fifth pushes out the oldest (R57). -/
def pushWindow (w : List WindowEntry) (e : WindowEntry) : List WindowEntry :=
  if w.length < 4 then w ++ [e] else w.drop (w.length - 3) ++ [e]

/-- The rate in L/min: 0 while the window holds fewer than four entries (R57). -/
def rateOf (w : List WindowEntry) : Nat :=
  if w.length < 4 then 0 else (w.map (·.gross)).sum * 600 / (w.map (·.elapsed)).sum

/-! ### Price -/

/-- Round half up of `n / d` for `d` even and above 0 (R103, R104). -/
def roundHalfUp (n : Int) (d : Nat) : Int := (n + d / 2) / d

/-- The price lines of the range from `lo` to `hi` in cL: one for each tier that overlaps it, in tier order (R103). -/
def priceLines : List Tier → (lo hi : Nat) → List PriceLine
  | [], _, _ => []
  | t :: rest, lo, hi =>
    let start := max lo (t.fromVolume * 100)
    let stop := match rest with
      | [] => hi
      | u :: _ => min hi (u.fromVolume * 100)
    if start < stop then { volume := stop - start, unitPrice := t.unitPrice } :: priceLines rest lo hi
    else priceLines rest lo hi

/-- The amount of a price line, rounded half up (R103). -/
def lineAmount (l : PriceLine) : Nat := (l.volume * l.unitPrice + 500) / 1000

/-- The money fields of a ticket (R103, R104). -/
structure Price where
  lines : List PriceLine
  adjustment : Int
  fee : Nat
  tax : Nat
  due : Nat
  deriving DecidableEq, Repr

/-- The price of a net that continues a drop from `base` (R103, R104); the fee is carried where `withFee` holds and the
drop is still below the product's minimum delivery. -/
def priceOf (product : Option ProductEntry) (tiers : List Tier) (adjust : Int) (withFee : Bool) (base net : Nat) :
    Price :=
  let lines := priceLines tiers base (base + net)
  let adjustment := roundHalfUp (net * adjust) 1000
  let fee : Nat := match product with
    | some p => if withFee && decide (base + net < p.minDelivery * 100) then p.fee else 0
    | none => 0
  let subtotal := ((((lines.map lineAmount).sum : Nat) : Int) + adjustment + fee).toNat
  let tax : Nat := match product with
    | some p => (subtotal * p.tax + 5000) / 10000
    | none => 0
  { lines := lines, adjustment := adjustment, fee := fee, tax := tax, due := subtotal + tax }

/-- The price of a drop's ticket with the active tables. -/
def priceFor (s : State) (product : Nat) (adjust : Int) (withFee : Bool) (base net : Nat) : Price :=
  priceOf (productOf s product) (tiersOf s product) adjust withFee base net

/-- The live amount due, the fee left out (R105); 0 for a proving run. -/
def liveDue (s : State) (c : Chan) : Nat :=
  match (s.ch c).ctx.drop with
  | some d => (priceFor s d.plan.product d.plan.adjustment false (s.ch c).ctx.baseVolume (liveNet s c)).due
  | none => 0

/-! ### The authorised volume -/

/-- The amount of `litres` litres that continue a drop (R89); the amount of 0 litres is 0. -/
def litresAmount (product : Option ProductEntry) (tiers : List Tier) (adjust : Int) (base litres : Nat) : Nat :=
  if litres = 0 then 0 else (priceOf product tiers adjust true base (litres * 100)).due

/-- The greatest number of litres up to the given one whose amount fits (R89); 0 where none does. -/
def greatestLitres (fits : Nat → Bool) : Nat → Nat
  | 0 => 0
  | n + 1 => if fits (n + 1) then n + 1 else greatestLitres fits n

/-- The credit volume in litres (R89). -/
def creditLitres (product : Option ProductEntry) (tiers : List Tier) (adjust : Int) (base amount ceiling : Nat) : Nat :=
  if ceiling < amount then 0
  else greatestLitres (fun l => decide (amount + litresAmount product tiers adjust base l ≤ ceiling)) 9999

/-- The authorised volume of a delivery ticket: the smallest of the bounds that are present (R89). -/
def authorisedVolume (s : State) (plan : Planning) (base amount available overrunLitres : Nat) : Nat :=
  let preset := match plan.kind, plan.preset with
    | .preset, some p => [p * 100 - base]
    | _, _ => []
  let ullage := match plan.ullage with
    | some u => [u * 100 - base]
    | none => []
  let credit := match plan.ceiling with
    | some limit =>
      [creditLitres (productOf s plan.product) (tiersOf s plan.product) plan.adjustment base amount limit * 100]
    | none => []
  (preset ++ ullage ++ credit ++ [available - overrunLitres * 100]).foldl min 999900

/-- A compartment's available volume: 0 while its load mark is set (R154). -/
def available (k : Comp) : Nat := if k.loadMark then 0 else k.base - k.delivered - k.reserved

/-- A compartment's remaining volume (R154). -/
def remaining (k : Comp) : Nat := k.base - k.delivered

/-- A compartment as replies show it. -/
def compView (k : Comp) : CompView := { comp := k, available := available k }

/-! ### Flow notices -/

/-- The values of a channel's flow notice at this moment (R62). In CLOSING and FAULTED the figures are those of the
built record. -/
def noticeOf (s : State) (c : Chan) : Notice :=
  let ch := s.ch c
  let base : Notice :=
    { chan := c, state := ch.ctx.state
      mode := if ch.ctx.state = .idle then .delivery else ch.ctx.mode
      drop := match ch.ctx.drop with | some d => d.plan.number | none => 0
      gross := 0, net := 0, temp := idleTemp ch.meter, due := 0, remaining := 0
      position := ch.gate.position, causes := ch.ctx.causes
      primary := if ch.ctx.state = .held then ch.ctx.primary else none
      watchA := ch.monitor.firedA, watchB := ch.monitor.firedB, note := ch.monitor.noteSeen }
  match ch.ctx.state, ch.ctx.pending with
  | .idle, _ => { base with drop := 0 }
  | .closing, some (.ticket t) | .faulted, some (.ticket t) =>
    { base with gross := t.gross, net := t.net, temp := t.temp, due := t.due, remaining := t.authorised - t.net }
  | .closing, some (.proving p _) | .faulted, some (.proving p _) =>
    { base with gross := p.gross, temp := p.temp, remaining := p.target - p.gross }
  | _, _ =>
    { base with gross := liveGross s c, net := liveNet s c, temp := averageTemp ch.meter, due := liveDue s c
                remaining := ch.ctx.authorised - liveFigure s c }

end Sys2Proof.Machine
end

