-- ==== Sys2Proof/Machine/Ops.lean ====
section
/-! DEFINITION. The named operations that the meanings share: updates of one block, the two outbound queues, replies,
flow notices, valve orders, causes and holds, the state changes of a ticket context, and what closes every command. -/
namespace Sys2Proof.Machine

/-! ### Updates of one block -/

/-- Replace a channel. -/
def State.setCh (s : State) (c : Chan) (x : Channel) : State :=
  match c with
  | .a => { s with chA := x }
  | .b => { s with chB := x }

def modCh (c : Chan) (f : Channel → Channel) (s : State) : State := s.setCh c (f (s.ch c))

def modCtx (c : Chan) (f : Ctx → Ctx) (s : State) : State := modCh c (fun x => { x with ctx := f x.ctx }) s

def modMeter (c : Chan) (f : Meter → Meter) (s : State) : State := modCh c (fun x => { x with meter := f x.meter }) s

def modGate (c : Chan) (f : Gate → Gate) (s : State) : State := modCh c (fun x => { x with gate := f x.gate }) s

def modMonitor (c : Chan) (f : Monitor → Monitor) (s : State) : State :=
  modCh c (fun x => { x with monitor := f x.monitor }) s

def modLine (f : Line → Line) (s : State) : State := { s with line := f s.line }

def modPower (f : Power → Power) (s : State) : State := { s with power := f s.power }

def modRoute (f : Route → Route) (s : State) : State := { s with route := f s.route }

def modComps (f : Comps → Comps) (s : State) : State := { s with comps := f s.comps }

def modStore (f : Store → Store) (s : State) : State := { s with store := f s.store }

def modJournal (f : Journal → Journal) (s : State) : State := { s with journal := f s.journal }

def modReq (f : Requests → Requests) (s : State) : State := { s with req := f s.req }

def modMet (f : Metrology → Metrology) (s : State) : State := { s with met := f s.met }

def modCtl (f : Control → Control) (s : State) : State := { s with ctl := f s.ctl }

/-! ### The C-bound queue (R15 to R17) -/

/-- The power states in which the C transmitter starts frames (R22). -/
def cSends (s : State) : Bool := s.power.state = .on || s.power.state = .starting

/-- The number of common places of the C-bound queue in use. -/
def commonUsed (l : Line) : Nat := (l.cq.filter fun e => !e.reserved).length

/-- The number of reserved places of the C-bound queue in use. -/
def reservedUsed (l : Line) : Nat := (l.cq.filter fun e => e.reserved).length

/-- A common place is free: there are 14 (R15). -/
def commonFree (s : State) : Bool := commonUsed s.line < 14

/-- A reserved place is free: there are 2 (R15). -/
def reservedFree (s : State) : Bool := reservedUsed s.line < 2

/-- Answer frames: replies and cab-bound valve answers (1.7). -/
def isAnswerFrame : CFrame → Bool
  | .reply _ => true
  | .answer _ => true
  | .fwd _ | .notice _ _ _ | .print _ _ => false

/-- The flow notice of a channel. -/
def isNoticeOf (c : Chan) : CFrame → Bool
  | .notice _ _ n => n.chan = c
  | .fwd _ | .print _ _ | .reply _ | .answer _ => false

/-- A PRINT frame of a channel. -/
def isPrintOf (c : Chan) : CFrame → Bool
  | .print _ p => p.chan = c
  | .fwd _ | .notice _ _ _ | .reply _ | .answer _ => false

/-- A valve answer of a channel's gate. -/
def isAnswerOf (c : Chan) : CFrame → Bool
  | .answer a => a.chan = c
  | .fwd _ | .notice _ _ _ | .print _ _ | .reply _ => false

/-- Put a frame in a place of the C-bound queue. -/
def queueC (f : CFrame) (reserved : Bool) (s : State) : State :=
  modLine (fun l => { l with cq := l.cq ++ [{ frame := f, reserved := reserved }] }) s

/-- Let a frame wait for a place, as the youngest of the waiting frames (R17). -/
def waitC (f : CFrame) (s : State) : State := modLine (fun l => { l with cwait := l.cwait ++ [f] }) s

/-- Take the next origin sequence of port C (R4). -/
def takeCSeq (s : State) : State := modLine (fun l => { l with cseq := l.cseq + 1 }) s

/-- A station's request is no longer in progress (R195). -/
def endRequest (station : Byte) (s : State) : State :=
  modReq (fun r => { r with inProgress := r.inProgress.filter fun p => p.station != station }) s

/-- Place a PRINT frame: a free common place, or the channel's print slot, or else it becomes the held print (R110). -/
def putPrint (p : Print) (s : State) : State :=
  if commonFree s then takeCSeq (queueC (.print s.line.cseq p) false s)
  else if s.line.cwait.any (isPrintOf p.chan) then modCh p.chan (fun x => { x with heldPrint := some p }) s
  else takeCSeq (waitC (.print s.line.cseq p) s)

/-- The ticket controller is told that a channel's print slot has emptied (R110). -/
def printSlotEmptied (c : Chan) (s : State) : State :=
  match (s.ch c).heldPrint with
  | some p => putPrint p (modCh c (fun x => { x with heldPrint := none }) s)
  | none => s

/-- Hand a freed place to the frame that has waited longest among those allowed in it (R17). -/
def handPlace (reserved : Bool) (s : State) : State :=
  match s.line.cwait.find? fun f => !reserved || isAnswerFrame f with
  | none => s
  | some f =>
    let moved := queueC f reserved (modLine (fun l => { l with cwait := l.cwait.erase f }) s)
    match f with
    | .reply r => endRequest r.dst moved
    | .print _ p => printSlotEmptied p.chan moved
    | .fwd _ | .notice _ _ _ | .answer _ => moved

/-- Start the next frame on the C transmitter when it is idle (R17). -/
def startC (s : State) : State :=
  if cSends s then
    match s.line.cline, s.line.cq with
    | none, e :: rest => handPlace e.reserved (modLine (fun l => { l with cline := some e.frame, cq := rest }) s)
    | _, _ => s
  else s

/-- Forward a frame to port C: a free common place, or it is dropped and counted on port F (R15). -/
def forwardC (f : Frame) (s : State) : State :=
  if commonFree s then startC (queueC (.fwd f) false s)
  else modLine (fun l => { l with fcnt := { l.fcnt with dropped := stopAt 65535 (l.fcnt.dropped + 1) } }) s

/-- The place an answer frame finds: common, reserved, or none (R15). -/
def answerPlace (s : State) : Option Bool :=
  if commonFree s then some false else if reservedFree s then some true else none

/-- Send a reply: placed, its request ends; otherwise it waits in the request unit (R15, R195). -/
def sendReply (r : Reply) (s : State) : State :=
  match answerPlace s with
  | some reserved => startC (endRequest r.dst (queueC (.reply r) reserved s))
  | none => waitC (.reply r) s

/-- Answer a station's request in progress, with its code and header sequence (R4, R195). A station without a request
in progress gets no reply (R201). -/
def reply (station : Byte) (refusal : Option RefCode) (result : Result) (s : State) : State :=
  match s.req.inProgress.find? fun p => p.station = station with
  | some p => sendReply { dst := station, seq := p.seq, code := p.code, refusal := refusal, result := result } s
  | none => s

def accept (station : Byte) (result : Result) (s : State) : State := reply station none result s

def refuse (station : Byte) (code : RefCode) (s : State) : State := reply station (some code) .nothing s

/-- The BUSY reply to a request that is not taken: placed, or discarded (R15, R195 step 1). -/
def busyReply (station seq code : Byte) (s : State) : State :=
  match answerPlace s with
  | some reserved =>
    startC (queueC (.reply { dst := station, seq := seq, code := code, refusal := some .busy, result := .nothing })
      reserved s)
  | none => s

/-- Send a cab-bound valve answer: placed, or it becomes the waiting answer of its gate (R15). -/
def sendAnswer (a : Answer) (s : State) : State :=
  match answerPlace s with
  | some reserved => startC (queueC (.answer a) reserved s)
  | none =>
    waitC (.answer a) (modLine (fun l => { l with cwait := l.cwait.filter fun f => !isAnswerOf a.chan f }) s)

/-- Send a PRINT frame (R110). -/
def sendPrint (p : Print) (s : State) : State := startC (putPrint p s)

/-- Place a flow notice (R16): in the place, or the slot, of the channel's earlier one; a free common place; or the
notice slot. -/
def putNotice (c : Chan) (n : Notice) (s : State) : State :=
  let f : CFrame := .notice s.store.settings.cab s.line.cseq n
  let s := takeCSeq s
  if s.line.cq.any fun e => isNoticeOf c e.frame then
    modLine (fun l => { l with cq := l.cq.map fun e => if isNoticeOf c e.frame then { e with frame := f } else e }) s
  else if s.line.cwait.any (isNoticeOf c) then
    modLine (fun l => { l with cwait := l.cwait.map fun w => if isNoticeOf c w then f else w }) s
  else if commonFree s then startC (queueC f false s)
  else waitC f s

/-! ### The F-bound queue (R13, R14) -/

/-- The power states in which the F transmitter starts frames (R22). -/
def fSends (s : State) : Bool := s.power.state = .on || s.power.state = .starting || s.power.state = .shutdown

/-- A valve order of a channel. -/
def isOrderOf (c : Chan) : FFrame → Bool
  | .order d _ _ _ _ => d = c
  | .fwd _ => false

/-- A CLOSED order of the part. -/
def isClosedOrder : FFrame → Bool
  | .order _ _ _ p _ => p = .closed
  | .fwd _ => false

/-- Forwarded frames hold the six common places of the F-bound queue (R13). -/
def isForward : FFrame → Bool
  | .fwd _ => true
  | .order _ _ _ _ _ => false

/-- The frame the F transmitter starts next: a CLOSED order first, otherwise the one placed earliest (R14). -/
def nextF (q : List FFrame) : Option FFrame :=
  match q.find? isClosedOrder with
  | some f => some f
  | none => q.head?

/-- Start the next frame on the F transmitter when it is idle (R14). -/
def startF (s : State) : State :=
  if fSends s then
    match s.line.fline, nextF s.line.fq with
    | none, some f => modLine (fun l => { l with fline := some f, fq := l.fq.erase f }) s
    | _, _ => s
  else s

/-- Forward a frame to port F: one of six common places, or it is dropped and counted on port C (R13). -/
def forwardF (f : Frame) (s : State) : State :=
  if (s.line.fq.filter isForward).length < 6 then startF (modLine (fun l => { l with fq := l.fq ++ [.fwd f] }) s)
  else modLine (fun l => { l with ccnt := { l.ccnt with dropped := stopAt 65535 (l.ccnt.dropped + 1) } }) s

/-- Withdraw the queued valve order of a channel unsent (R13, R118). -/
def withdrawOrder (c : Chan) (s : State) : State :=
  modLine (fun l => { l with fq := l.fq.filter fun f => !isOrderOf c f }) s

/-- Place a valve order in its channel's reserved place, in the stead of one queued there (R13); each is a new frame
with a new origin sequence (R4). A channel without a VALVE node sends none (R118). -/
def placeOrder (c : Chan) (p : Pos) (number : Byte) (s : State) : State :=
  match nodeOf s c .valve with
  | some n =>
    let s := withdrawOrder c s
    startF (modLine (fun l =>
      { l with fq := l.fq ++ [.order c n.address l.fseq p number], fseq := l.fseq + 1 }) s)
  | none => s

/-- Issue an order for a position, steps 1 to 4 of R118. -/
def issueOrder (c : Chan) (p : Pos) (s : State) : State :=
  match nodeOf s c .valve with
  | some _ =>
    placeOrder c p (s.ch c).gate.nextOrder
      (modGate c (fun g =>
        { g with
          nextOrder := g.nextOrder + 1
          outstanding := some { position := p, number := g.nextOrder, phase := .queued, attempts := 1 }
          timer := false, position := p, confirmed := false, missed := false }) s)
  | none => s

/-- The gate is asked to close: a CLOSED order when the ordered position is not already CLOSED (R121). -/
def gateClose (c : Chan) (s : State) : State :=
  if (s.ch c).gate.position = .closed then s else issueOrder c .closed s

/-- Send the outstanding order again under its number, with the given attempts (R119, R136). -/
def resendOrder (c : Chan) (o : Order) (attempts : Nat) (s : State) : State :=
  placeOrder c o.position o.number
    (modGate c (fun g => { g with outstanding := some { o with phase := .queued, attempts := attempts }
                                  timer := false }) s)

/-! ### Flow notices (R63) -/

/-- Produce a flow notice now and restart the interval timer; with no cab terminal none is produced and the pending mark
clears (R63). -/
def produceNotice (c : Chan) (s : State) : State :=
  let n := noticeOf s c
  let s := modCh c (fun x => { x with noticeRef := x.noticeRef.map fun _ => n }) s
  let s := modMeter c (fun m => { m with noticePending := false }) s
  if s.store.settings.cab = 0 then s
  else putNotice c n (modMeter c (fun m => { m with noticeTimer := true }) s)

/-- A field of R62 has changed without a change of state (R63). With no cab terminal the pending mark clears here and where
a notice falls due, not when the setting takes effect (notes/assumptions/54.md). -/
def valueNotice (c : Chan) (s : State) : State :=
  if (s.ch c).ctx.state = .idle then s
  else if s.store.settings.cab = 0 then modMeter c (fun m => { m with noticePending := false }) s
  else if (s.ch c).meter.noticeTimer then modMeter c (fun m => { m with noticePending := true }) s
  else produceNotice c s

/-! ### Episodes, causes and holds -/

/-- Change the newest episode. -/
def modLastEpisode (f : Episode → Episode) (es : List Episode) : List Episode :=
  match es.getLast? with
  | some e => es.dropLast ++ [f e]
  | none => []

/-- End the open episode with a cause (R93): end net, end cause, NO-FLOW mark. -/
def endEpisode (c : Chan) (cause : EndCause) (s : State) : State :=
  let figure := liveFigure s c
  modCtx c (fun x =>
    { x with episodes := modLastEpisode (fun e =>
        { e with endNet := some figure, cause := some cause, noFlow := x.episodePulses = 0 }) x.episodes }) s

/-- End the episode and settle (R93, R94): the settle values in force are captured, the gate closes, and the state
change produces a notice, at once also inside an evaluation (notes/assumptions/72.md). -/
def settle (c : Chan) (cause : EndCause) (s : State) : State :=
  let s := endEpisode c cause s
  let s := modCtx c (fun x =>
    { x with state := .settling, quiet := some s.store.settings.settleQuiet
             limit := some s.store.settings.settleLimit, autoClose := x.autoClose || cause = .endAction }) s
  produceNotice c (gateClose c s)

/-- The address of a channel's node of a role, 0 where there is none. -/
def nodeAddress (s : State) (c : Chan) (r : Role) : Byte :=
  match nodeOf s c r with
  | some n => n.address
  | none => 0

/-- The node concerned with a primary cause (R141); `silent` is the node whose silence limit expired. -/
def causeNode (s : State) (c : Chan) (silent : Byte) : Cause → Byte
  | .tally => nodeAddress s c .tally
  | .air => nodeAddress s c .vapour
  | .valve => nodeAddress s c .valve
  | .probe => nodeAddress s c .probe
  | .reel => nodeAddress s c .reel
  | .silent => silent
  | .metrology | .supply | .creep | .program => 0

/-- Start the creep count of an entry to ARMED, PAUSED or HELD (R60). -/
def resetCreep (c : Chan) (s : State) : State := modMeter c (fun m => { m with creep := 0, creepMark := false }) s

/-- The hold entry of an entry to HELD (R141), with the position the valve stood ordered to before the gate closes. -/
def holdEntry (s : State) (c : Chan) (p : Cause) (silent : Byte) : HoldEntry :=
  { primary := p, net := liveFigure s c, position := (s.ch c).gate.position, node := causeNode s c silent p }

/-- A group of causes moves a context to HELD, steps 1 to 8 of R140; the notice of step 8 is produced at once also inside an
evaluation (notes/assumptions/72.md). -/
def enterHeld (c : Chan) (group : List Cause) (p : Cause) (silent : Byte) (s : State) : State :=
  let entry := holdEntry s c p silent
  let flowing : Bool := (s.ch c).ctx.state = .flowing
  let s := modCtx c (fun x =>
    { x with causes := joinCauses group x.causes, primary := some p, holdCount := stopAt 255 (x.holdCount + 1)
             holds := if x.holds.length < 8 then x.holds ++ [entry] else x.holds }) s
  let s := if flowing then endEpisode c .hold s else s
  let s := modCtx c (fun x =>
    { x with quiet := none, limit := none, autoClose := false, state := .held, rest := some 0 }) s
  produceNotice c (gateClose c (resetCreep c s))

/-- The causes of one event are handed to the ticket controller (R97, R139). -/
def handCauses (c : Chan) (group : List Cause) (silent : Byte) (s : State) : State :=
  match primaryOf group with
  | none => s
  | some p =>
    match (s.ch c).ctx.state with
    | .armed | .flowing | .settling | .paused => enterHeld c group p silent s
    | .held => modCtx c (fun x => { x with causes := joinCauses group x.causes }) s
    | .idle | .closing | .faulted => s

/-! ### Leaving IDLE and returning to it -/

/-- The meter prepares for a ticket, steps 1 to 5 of R43. -/
def prepareMeter (c : Chan) (s : State) : State :=
  let mf := match (s.ch c).ctx.mode with
    | .delivery => factorInForce s.store.metset c
    | .proving => 10000
  let offset := offsetInForce s.store.metset c
  modMeter c (fun m =>
    { m with fwd := 0, rev := 0, weighted := 0, gaps := 0, firstTally := true, window := [], creep := 0
             creepMark := false, mf := mf, offset := offset, stale := .running }) s

/-- The silence timers of a channel's mapped nodes start from zero (R18). -/
def startSilence (c : Chan) (s : State) : State :=
  modCh c (fun x => { x with
    silence := ((entriesOf s.store.nodes).filter fun n => n.chan = c).map fun n => { node := n.address } }) s

/-- The causes that leaving IDLE hands together: AIR (R58), SUPPLY (R138), VALVE (R121). -/
def openingCauses (s : State) (c : Chan) : List Cause :=
  (if (s.ch c).meter.vapour = .vapour then [.air] else []) ++
  (if s.power.level = .low then [.supply] else []) ++
  (if (s.ch c).gate.missed then [.valve] else [])

/-- A context whose fields have been set leaves IDLE for ARMED (R43, R91, R191): the channel's blocks start, the notice of
ARMED is produced, and then the causes of the opening are handed as one group, at which the context may enter HELD with a
notice of its own (notes/assumptions/71.md). -/
def leaveIdle (c : Chan) (s : State) : State :=
  let s := modCtx c (fun x => { x with state := .armed }) s
  let s := startSilence c (prepareMeter c s)
  let s := modMonitor c (fun _ => { program := (s.ch c).ctx.drop.map fun d => d.plan.program }) s
  handCauses c (openingCauses s c) 0 (produceNotice c s)

/-- A context returns to IDLE: its fields clear (R86), the meter, the silence timers, the gate and the stop monitor
return to IDLE (R18, R44, R121, R128), and one notice is produced, after which the timer stops (R63). -/
def toIdle (c : Chan) (s : State) : State :=
  let s := modCtx c (fun x => { mode := x.mode }) s
  let s := modMeter c (fun m => { m with stale := .stopped, firstTally := false, window := [] }) s
  let s := modGate c (fun g => { g with requested := none, limited := false }) s
  let s := modMonitor c (fun _ => {}) s
  let s := modCh c (fun x => { x with silence := [] }) s
  let s := modCtl (fun k => { k with faultOrder := k.faultOrder.filter fun d => d != c }) s
  modMeter c (fun m => { m with noticeTimer := false, noticePending := false }) (produceNotice c s)

/-- Change the drop of a number. -/
def modDrop (number : Nat) (f : Drop → Drop) (s : State) : State :=
  modRoute (fun r => { r with drops := r.drops.map fun d => if d.plan.number = number then f d else d }) s

/-- The drop of a number in the table. -/
def dropOf (s : State) (number : Nat) : Option Drop := s.route.drops.find? fun d => d.plan.number = number

/-- The compartment of a number from 1 to 4. -/
def compOf (s : State) (n : Nat) : Comp := (s.comps.list[n - 1]?).getD {}

/-- Change the compartment of a number from 1 to 4. -/
def modComp (n : Nat) (f : Comp → Comp) (s : State) : State :=
  modComps (fun k => { k with list := k.list.modify (n - 1) f }) s

/-- The claim of a channel's context is released (R72, R99). -/
def releaseClaim (c : Chan) (s : State) : State :=
  modRoute (fun r =>
    { r with drops := r.drops.map fun d => if d.claimant = some c then { d with claimant := none } else d }) s

/-- The reservation of a channel's context is released (R156). -/
def releaseReservation (c : Chan) (s : State) : State :=
  match (s.ch c).ctx.comp with
  | some n => modComp n (fun k => { k with reserved := k.reserved - (s.ch c).ctx.reservation }) s
  | none => s

/-- A ticket is cancelled from ARMED: no record, no number (R99). -/
def cancel (c : Chan) (s : State) : State := toIdle c (releaseReservation c (releaseClaim c s))

/-! ### Building a record -/

/-- The TICKET record of a context at this moment, all but its number (R100 to R104). -/
def buildTicket (s : State) (c : Chan) (d : Claimed) : TicketBody :=
  let x := (s.ch c).ctx
  let m := (s.ch c).meter
  let product := d.plan.product
  let temp := averageTemp m
  let vcf := productVcf s product temp
  let gross := grossOf m
  let net := netOf gross vcf.1
  let status := statusRule (pulses m) x.origin x.causes (s.ch c).monitor.guard (s.ch c).monitor.endFired d.plan.kind
    (d.plan.preset.getD 0) x.baseVolume net
  let price := priceFor s product d.plan.adjustment (status = .complete) x.baseVolume net
  let overrun := match productOf s product with
    | some p => p.overrun
    | none => 0
  { routeId := d.routeId, drop := d.plan.number, account := d.plan.account, product := product, chan := c
    comp := x.comp.getD 0, status := status
    flags := ticketFlags x.flags vcf.2 net x.authorised overrun m.gaps s.power.unset
    origin := x.origin, openTime := x.openTime, authorised := x.authorised, gross := gross, net := net, temp := temp
    vcf := vcf.1, mf := m.mf, fwd := m.fwd, rev := m.rev, gaps := m.gaps, lines := price.lines
    adjustment := price.adjustment, fee := price.fee, tax := price.tax, due := price.due, episodes := x.episodes
    holdCount := x.holdCount, holds := x.holds, reservation := x.reservation }

/-- The PROVING record of a context at this moment (R192). -/
def buildProving (s : State) (c : Chan) : ProvingBody :=
  let x := (s.ch c).ctx
  let m := (s.ch c).meter
  { chan := c, openTime := x.openTime, fwd := m.fwd, rev := m.rev, gross := grossOf m, temp := averageTemp m
    target := x.authorised, episodes := x.episodes }

/-- The record of a context whose close origin is set, with the metrology unit's judgement for a proving run. -/
def buildRecord (s : State) (c : Chan) : Built :=
  match (s.ch c).ctx.drop with
  | some d => .ticket (buildTicket s c d)
  | none => .proving (buildProving s c) (soundRule (s.ch c).ctx.origin (s.ch c).ctx.causes (pulses (s.ch c).meter))

/-- The flags a built record gives its context (R102). -/
def builtFlags (b : Built) (f : Flags) : Flags :=
  match b with
  | .ticket t => t.flags
  | .proving _ _ => f

/-- Build the record and move the context to `next`: the close origin is written, the timers stop, and the record
becomes the pending record (R98, R100, R115, R150). -/
def buildAndEnter (c : Chan) (origin : CloseOrigin) (next : CtxState) (s : State) : State :=
  let s := modCtx c (fun x =>
    { x with origin := origin, quiet := none, limit := none, rest := none, primary := none }) s
  let built := buildRecord s c
  modCtx c (fun x => { x with pending := some built, flags := builtFlags built x.flags, state := next }) s

/-- Hand an append to the arbiter (R170). -/
def handAppend (a : Append) (s : State) : State := modJournal (fun j => { j with waiting := j.waiting ++ [a] }) s

/-- A close begins: the record is built, the context enters CLOSING and its record is handed (R98, R106). -/
def beginClose (c : Chan) (origin : CloseOrigin) (requester : Option Byte) (s : State) : State :=
  let s := modCtx c (fun x => { x with requester := requester }) s
  handAppend (.close c) (produceNotice c (buildAndEnter c origin .closing s))

/-- A context becomes FAULTED, as the youngest of the FAULTED ones (R108, R152). -/
def enterFaulted (c : Chan) (s : State) : State :=
  let s := modCtx c (fun x => { x with state := .faulted }) s
  produceNotice c (modCtl (fun k => { k with faultOrder := k.faultOrder ++ [c] }) s)

/-! ### The journal's figures -/

/-- Free slots (R175). -/
def freeSlots (s : State) : Nat :=
  (s.journal.blocks.map fun b =>
    match b.state with
    | .erased => 16
    | .current => 16 - b.writePoint
    | .filled | .erasing | .unsettled | .retired => 0).sum

/-- The journal accepts a management append; OPEN TICKET and OPEN PROVING ask the same (R175). -/
def accepts (s : State) : Bool :=
  8 ≤ freeSlots s && s.journal.newestSeq < 4294967280 && s.journal.newestTicket < 99999998

/-- A record counts as drained when it carries the mark or was drained in working memory (R180). -/
def drainedEntry (j : Journal) (e : IndexEntry) : Bool := e.drained || j.memDrains.contains e.seq

/-- The undrained retained records (R180). -/
def undrained (j : Journal) : List IndexEntry := j.index.filter fun e => !drainedEntry j e

/-- The drain cursor (R180); the index stands in ascending sequence. -/
def drainCursor (j : Journal) : Nat :=
  match undrained j with
  | e :: _ => e.seq
  | [] => j.newestSeq + 1

/-! ### What is in flight -/

/-- The append being programmed, if any. -/
def programmingAppend (j : Journal) : List Append :=
  match j.busy with
  | .programming a _ _ _ _ => [a]
  | .idle | .marking _ _ _ _ => []

/-- The management bodies waiting or being programmed. -/
def bodiesInFlight (s : State) : List Body :=
  (s.journal.waiting ++ programmingAppend s.journal).filterMap fun a =>
    match a with
    | .manage _ b => some b
    | .close _ | .mark _ => none

/-- The planning fields of the additions in flight (R74). -/
def additionsInFlight (s : State) : List Planning :=
  (bodiesInFlight s).filterMap fun b =>
    match b with
    | .dropNote n => if n.op = .add then n.plan else none
    | .ticket _ _ | .load _ | .routeOpen _ _ _ _ | .routeClose _ | .audit _ | .proving _ => none

/-- The products of the loads in flight (R159). -/
def loadsInFlight (s : State) : List Nat :=
  (bodiesInFlight s).filterMap fun b =>
    match b with
    | .load l => some l.product
    | .ticket _ _ | .dropNote _ | .routeOpen _ _ _ _ | .routeClose _ | .audit _ | .proving _ => none

/-- Another station has a request of this code in progress. -/
def otherInProgress (s : State) (station code : Byte) : Bool :=
  s.req.inProgress.any fun p => p.station != station && p.code = code

/-! ### What opens and closes every command -/

/-- Note both channels' notice values at the start of a command, so that a change can be told at its end (R63). -/
def noteValues (s : State) : State :=
  { s with chA := { s.chA with noticeRef := some (noticeOf s .a) }
           chB := { s.chB with noticeRef := some (noticeOf s .b) } }

/-- Judge a channel's value change at the end of a command: once, after everything the command set in motion
(R61 step 5, R63, R132). -/
def settleNotice (c : Chan) (s : State) : State :=
  let s := match (s.ch c).noticeRef with
    | some n => if noticeOf s c = n then s else valueNotice c s
    | none => s
  modCh c (fun x => { x with noticeRef := none }) s

/-- What holds together for the standby delay timer to run (R200). -/
def standbyReady (s : State) : Bool :=
  s.power.state = .on && !s.pins.ignitionOn && s.chA.ctx.state = .idle && s.chB.ctx.state = .idle &&
  s.req.inProgress.isEmpty && s.journal.waiting.isEmpty && s.journal.busy = .idle && s.journal.erasing = none &&
  s.store.settings.standbyDelay != 0

/-- Judge the standby delay timer: it runs, with the delay it was started with, while its conditions hold (R200). -/
def judgeStandby (s : State) : State :=
  let delay := if standbyReady s then some (s.power.standby.getD s.store.settings.standbyDelay) else none
  modPower (fun p => { p with standby := delay }) s

/-- The state of OFF: working memory is lost, the non-volatile part, the inputs, the model's free counter and the queue
stay; every block then has its power-on values (R201, R202). -/
def powerOnValues (s : State) : State :=
  { store := { programs := factoryPrograms }, nv := s.nv, pins := s.pins, free := s.free, pending := s.pending }

/-- In SHUTDOWN the part goes OFF when no append waits and no program, mark or store write is in progress (R201,
step 6). -/
def judgePowerOff (s : State) : State :=
  if s.power.state = .shutdown && s.journal.waiting.isEmpty && s.journal.busy = .idle && s.store.tableWrite.isNone &&
      s.store.settingsWrites.isEmpty
  then powerOnValues s else s

/-- The alert line is judged again (R146). -/
def judgeAlert (s : State) : State := modCtl (fun k => { k with alert := alertRule s }) s

/-- What closes every command: value changes, channel A's notice before channel B's (notes/assumptions/59.md), the end of
SHUTDOWN, the alert line, the standby delay timer. -/
def finish (s : State) : State :=
  judgeStandby (judgeAlert (judgePowerOff (settleNotice .b (settleNotice .a s))))

/-- A command as one event: `f` is its effect between what opens and what closes every command. -/
def event (f : State → State) (s : State) : Host.Outcome State Fault Refusal := .next (finish (f (noteValues s)))

end Sys2Proof.Machine
end

