-- ==== Sys2Proof/Machine/Tables.lean ====
section
/-! DEFINITION. The table store's judgements: the ranges of entries and the checks of R24 to R27, R33, R34, R66 and R70,
what an activation changes, and the settings' ranges. -/
namespace Sys2Proof.Machine

/-! ### Staged entries as a table -/

/-- A staged table whose entries are all of its kind, route entries with the header first (R29). -/
inductive TableData
  | products (l : List ProductEntry)
  | prices (l : List PriceList)
  | curves (l : List Curve)
  | programs (l : List ProgramEntry)
  | nodes (l : List NodeEntry)
  | stations (l : List StationEntry)
  | route (h : RouteHeader) (l : List StagedDrop)
  deriving DecidableEq, Repr

/-- All images, or none where one is missing. -/
def gather {α β : Type} (f : α → Option β) : List α → Option (List β)
  | [] => some []
  | x :: rest =>
    match f x, gather f rest with
    | some y, some ys => some (y :: ys)
    | _, _ => none

def asProduct : Entry → Option ProductEntry | .product e => some e | _ => none
def asPrice : Entry → Option PriceList | .price e => some e | _ => none
def asCurve : Entry → Option Curve | .correction e => some e | _ => none
def asProgram : Entry → Option ProgramEntry | .stopProgram e => some e | _ => none
def asStation : Entry → Option StationEntry | .station e => some e | _ => none
def asDrop : Entry → Option StagedDrop | .drop e => some e | _ => none

/-- A node entry loaded with silence limit 0 takes 500 (R6). -/
def asNode : Entry → Option NodeEntry
  | .nodeMap e => some { e with silence := if e.silence = 0 then 500 else e.silence }
  | _ => none

/-- The table that staged entries of a kind make; none where an entry is not a readable entry of the kind. -/
def tableOf (kind : TableKind) (entries : List Entry) : Option TableData :=
  match kind with
  | .product => (gather asProduct entries).map .products
  | .price => (gather asPrice entries).map .prices
  | .correction => (gather asCurve entries).map .curves
  | .stopProgram => (gather asProgram entries).map .programs
  | .nodeMap => (gather asNode entries).map .nodes
  | .station => (gather asStation entries).map .stations
  | .route =>
    match entries with
    | .header h :: rest => (gather asDrop rest).map (.route h)
    | _ => none

/-- The kind of a staged entry; the header and the drops are of kind ROUTE (R29). -/
def entryKind : Entry → TableKind
  | .product _ => .product
  | .price _ => .price
  | .correction _ => .correction
  | .stopProgram _ => .stopProgram
  | .nodeMap _ => .nodeMap
  | .station _ => .station
  | .header _ | .drop _ => .route
  | .illCoded k => k

/-- The range of the declared entry count of a kind (R29). -/
def countInRange (kind : TableKind) (n : Nat) : Bool :=
  match kind with
  | .product | .price => 1 ≤ n && n ≤ 8
  | .correction => 1 ≤ n && n ≤ 4
  | .stopProgram => n ≤ 8
  | .nodeMap => n ≤ 10
  | .station => 1 ≤ n && n ≤ 4
  | .route => 1 ≤ n && n ≤ 97

/-! ### Ranges -/

/-- No value twice. -/
def distinct {α : Type} [BEq α] : List α → Bool
  | [] => true
  | x :: rest => !rest.contains x && distinct rest

/-- `n` characters of the printable set, space to tilde (R24, R66). -/
def printable (n : Nat) (text : List Byte) : Bool :=
  text.length = n && text.all fun b => 0x20 ≤ b.toNat && b.toNat ≤ 0x7e

def between (low high n : Nat) : Bool := low ≤ n && n ≤ high

/-- An address of a node or a station (R1). -/
def addressOk (a : Byte) : Bool := between 1 126 a.toNat

/-- R24. -/
def productOk (e : ProductEntry) : Bool :=
  between 1 8 e.code && printable 12 e.name && e.curve ≤ 3 && e.startSlow ≤ 50 && e.overrun ≤ 20 &&
  e.minDelivery ≤ 500 && e.fee ≤ 99999 && e.tax ≤ 3000

/-- Tiers in ascending order, each in range (R25). -/
def tiersAscend : List Tier → Bool
  | [] => true
  | [t] => t.fromVolume ≤ 99999 && between 1 99999 t.unitPrice
  | t :: u :: rest =>
    t.fromVolume ≤ 99999 && between 1 99999 t.unitPrice && t.fromVolume < u.fromVolume && tiersAscend (u :: rest)

/-- R25. -/
def priceListOk (e : PriceList) : Bool :=
  between 1 8 e.code && between 1 4 e.tiers.length && tiersAscend e.tiers &&
  (match e.tiers with | t :: _ => t.fromVolume = 0 | [] => false)

/-- R26. -/
def curveOk (e : Curve) : Bool := e.number ≤ 3 && e.factors.length = 16 && e.factors.all fun v => between 9500 10500 v

/-- The value range of a quantity, and FROM-AUTHORISED with NET and GROSS only (R27). -/
def watchOk (w : Watch) : Bool :=
  w.persistence ≤ 255 &&
  match w.quantity with
  | .net | .gross => w.value ≤ 999900
  | .rate => w.value ≤ 2000 && w.reference = .absolute
  | .amount => w.value ≤ 9999999 && w.reference = .absolute

/-- R27. -/
def programOk (e : ProgramEntry) : Bool := e.number ≤ 7 && watchOk e.program.watchA && watchOk e.program.watchB

/-- R6. -/
def nodeOk (e : NodeEntry) : Bool := addressOk e.address && between 100 2000 e.silence

/-- The stop program an entry names, DEFAULT resolved (R66). -/
def resolvedProgram (d : StagedDrop) : Nat :=
  match d.program with
  | some n => n
  | none => match d.kind with
    | .preset => 0
    | .fill => 1

def optionAll (p : Nat → Bool) : Option Nat → Bool
  | some n => p n
  | none => true

/-- Every planning field in its range, kind and preset in agreement, product and program held (R66, R70, R77). -/
def dropOk (s : State) (d : StagedDrop) : Bool :=
  between 1 9999 d.number && printable 10 d.account && between 1 8 d.product && optionAll (between 1 99999) d.preset &&
  optionAll (between 1 99999) d.ullage && optionAll (fun n => n ≤ 99999999) d.ceiling &&
  (match d.adjustment with | some a => decide (-9999 ≤ a) && decide (a ≤ 9999) | none => true) &&
  optionAll (fun n => n ≤ 7) d.program &&
  (match d.kind with | .preset => d.preset.isSome | .fill => d.preset.isNone) &&
  (productOf s d.product).isSome && (programOf s (resolvedProgram d)).isSome

/-- The planning fields of an entry that enters the table (R66). -/
def planOf (d : StagedDrop) : Planning :=
  { number := d.number, account := d.account, product := d.product, kind := d.kind, preset := d.preset
    ullage := d.ullage, ceiling := d.ceiling, adjustment := d.adjustment.getD 0, program := resolvedProgram d }

/-! ### Checks per kind (R33) -/

/-- The products that must remain: of drops, additions in flight, compartments and loads in flight. -/
def productsNamed (s : State) : List Nat :=
  s.route.drops.map (·.plan.product) ++ (additionsInFlight s).map (·.product) ++
  (s.comps.list.map (·.product)).filter (· != 0) ++ loadsInFlight s

/-- The programs that must not become empty: of drops and additions in flight. -/
def programsNamed (s : State) : List Nat :=
  s.route.drops.map (·.plan.program) ++ (additionsInFlight s).map (·.program)

/-- The eight programs after an activation (R27). -/
def programsAfter (l : List ProgramEntry) : List (Option StopProgram) :=
  (List.range 8).map fun n =>
    match l.find? fun e => e.number = n with
    | some e => some e.program
    | none => (factoryPrograms[n]?).getD none

/-- A printer or cab terminal address that settings writes in progress write (R33). -/
def addressesBeingWritten (s : State) : List Nat :=
  s.store.settingsWrites.filterMap fun w =>
    match w.change with
    | .office .printer v => some v.toNat
    | .office .cab v => some v.toNat
    | .office _ _ | .metrology _ _ => none

/-- A node address that the station table or the settings use (R33). -/
def addressTaken (s : State) (a : Byte) : Bool :=
  (entriesOf s.store.stations).any (fun e => e.address = a) || s.store.settings.printer = a ||
  s.store.settings.cab = a || (addressesBeingWritten s).contains a.toNat

/-- The range checks and the checks of R33 for an activation's table; a route is judged by R70. -/
def tableChecks (s : State) : TableData → Bool
  | .products l =>
    l.all productOk && distinct (l.map (·.code)) && l.all (fun e => (curveOf s e.curve).isSome) &&
    (match s.store.prices with
     | some prices => l.all fun e => prices.any fun p => p.code = e.code
     | none => true) &&
    (productsNamed s).all fun n => l.any fun e => e.code = n
  | .prices l =>
    l.all priceListOk && distinct (l.map (·.code)) &&
    (entriesOf s.store.products).all fun e => l.any fun p => p.code = e.code
  | .curves l =>
    l.all curveOk && distinct (l.map (·.number)) &&
    (entriesOf s.store.products).all fun e => l.any fun k => k.number = e.curve
  | .programs l =>
    l.all programOk && distinct (l.map (·.number)) &&
    (programsNamed s).all fun n => ((programsAfter l)[n]?.getD none).isSome
  | .nodes l =>
    l.all nodeOk && distinct (l.map (·.address)) && distinct (l.map fun e => (e.chan, e.role)) &&
    l.all fun e => !addressTaken s e.address
  | .stations l =>
    l.all (fun e => addressOk e.address) && distinct (l.map (·.address)) &&
    l.all (fun e => !(entriesOf s.store.nodes).any fun n => n.address = e.address) &&
    l.any fun e => e.cls != .driver
  | .route h l =>
    between 1 4294967295 h.id && h.count = l.length && optionAll (fun n => n ≤ 99999999) h.ceiling &&
    l.all (dropOk s) && distinct (l.map (·.number))

/-! ### What an activation changes (R33, R34) -/

/-- The same entries, in any order. -/
def sameEntries {α : Type} [BEq α] (a b : List α) : Bool := a.all b.contains && b.all a.contains

/-- The activation changes metrology entries (R33). -/
def metrologyChange (s : State) : TableData → Bool
  | .curves _ => true
  | .nodes l =>
    let sealedRoles := fun (n : NodeEntry) => n.role = .tally || n.role = .probe
    !sameEntries ((entriesOf s.store.nodes).filter sealedRoles) (l.filter sealedRoles)
  | .stations l =>
    let sealedClass := fun (e : StationEntry) => e.cls = Cls.metrology
    !sameEntries ((entriesOf s.store.stations).filter sealedClass) (l.filter sealedClass)
  | .products _ | .prices _ | .programs _ | .route _ _ => false

/-- The entries of a channel differ between two node maps (R34). -/
def mapChanges (before after : List NodeEntry) (c : Chan) : Bool :=
  !sameEntries (before.filter fun n => n.chan = c) (after.filter fun n => n.chan = c)

/-- The channels an activation affects (R34); opening a route is not an activation. -/
def affects (s : State) (t : TableData) (c : Chan) : Bool :=
  match t with
  | .products _ | .prices _ | .curves _ | .programs _ => true
  | .nodes l => mapChanges (entriesOf s.store.nodes) l c
  | .stations _ | .route _ _ => false

/-- An activation in progress that bars a channel from leaving IDLE (R34). -/
def barred (s : State) (c : Chan) : Bool :=
  match s.store.staging with
  | .activating l =>
    match tableOf l.kind l.entries with
    | some t => affects s t c
    | none => false
  | .empty | .filling _ => false

/-- The use condition of R34: every affected channel is IDLE. -/
def useCondition (s : State) (t : TableData) : Bool :=
  [Chan.a, .b].all fun c => !affects s t c || (s.ch c).ctx.state = .idle

/-- The entries of the active table of a kind, as entries. -/
def activeEntries (s : State) : TableKind → List Entry
  | .product => (entriesOf s.store.products).map .product
  | .price => (entriesOf s.store.prices).map .price
  | .correction => (entriesOf s.store.curves).map .correction
  | .nodeMap => (entriesOf s.store.nodes).map .nodeMap
  | .station => (entriesOf s.store.stations).map .station
  | .stopProgram | .route => []

/-- A table's value in an AUDIT record: its entry count and the check over its entries (R189). -/
def auditTable (entries : List Entry) : AuditValue :=
  .table entries.length (check16 (entries.flatMap Config.entryBytes))

/-- The change and the counter of a metrology activation (R33, R190). -/
def tableChange : TableKind → Option (Change × AuditCounter)
  | .correction => some (.correction, .calibration)
  | .nodeMap => some (.nodeMap, .configuration)
  | .station => some (.station, .configuration)
  | .product | .price | .stopProgram | .route => none

/-! ### Settings (R39, R188) -/

/-- A value within a range of whole numbers. -/
def valueIn (low high v : Int) : Bool := decide (low ≤ v) && decide (v ≤ high)

/-- The range of a setting. The supply system is written as 12 or 24, the alert mask as eleven bits with the cause of
rank 1 least significant and the lockout flag above them, raw echo as 0 or 1. -/
def settingInRange (k : Setting) (v : Int) : Bool :=
  match k with
  | .printer | .cab => valueIn 0 126 v
  | .settleQuiet => valueIn 500 5000 v
  | .settleLimit => valueIn 5 60 v
  | .creepLimit => valueIn 1 500 v
  | .standbyDelay => valueIn 0 255 v
  | .supplySystem => v = 12 || v = 24
  | .lowLevel => valueIn 1 4 v
  | .heelAllowance => valueIn 0 100 v
  | .alertMask => valueIn 0 2047 v
  | .rawEcho => valueIn 0 1 v

/-- The settings with one changed. -/
def changeSetting (k : Setting) (v : Int) (t : Settings) : Settings :=
  match k with
  | .printer => { t with printer := BitVec.ofNat 8 v.toNat }
  | .cab => { t with cab := BitVec.ofNat 8 v.toNat }
  | .settleQuiet => { t with settleQuiet := v.toNat }
  | .settleLimit => { t with settleLimit := v.toNat }
  | .creepLimit => { t with creepLimit := v.toNat }
  | .standbyDelay => { t with standbyDelay := v.toNat }
  | .supplySystem => { t with system := if v = 24 then .v24 else .v12 }
  | .lowLevel => { t with lowStep := v.toNat }
  | .heelAllowance => { t with heel := v.toNat }
  | .alertMask =>
    { t with maskCauses := allCauses.filter fun c => v.toNat.testBit (rank c - 1), maskLockout := v.toNat.testBit 10 }
  | .rawEcho => { t with rawEcho := v = 1 }

/-- The range of a metrology setting (R188). -/
def metInRange (k : MetSetting) (v : Int) : Bool :=
  match k with
  | .factorA | .factorB => valueIn 9000 11000 v
  | .offsetA | .offsetB => valueIn (-20) 20 v
  | .jumpLimit => valueIn 200 5000 v
  | .reverseLimit => valueIn 0 1000 v

/-- The value of a metrology setting in force. -/
def metValue (t : MetSettings) : MetSetting → Int
  | .factorA => t.factorA
  | .factorB => t.factorB
  | .offsetA => t.offsetA
  | .offsetB => t.offsetB
  | .jumpLimit => t.jumpLimit
  | .reverseLimit => t.reverseLimit

/-- The metrology settings with one changed. -/
def changeMet (k : MetSetting) (v : Int) (t : MetSettings) : MetSettings :=
  match k with
  | .factorA => { t with factorA := v.toNat }
  | .factorB => { t with factorB := v.toNat }
  | .offsetA => { t with offsetA := v }
  | .offsetB => { t with offsetB := v }
  | .jumpLimit => { t with jumpLimit := v.toNat }
  | .reverseLimit => { t with reverseLimit := v.toNat }

/-- A printer or cab terminal address must not be a node's, active or being activated (R39, check 4). -/
def addressOfNode (s : State) (a : Byte) : Bool :=
  (entriesOf s.store.nodes).any (fun n => n.address = a) ||
  match s.store.staging with
  | .activating l =>
    (match tableOf l.kind l.entries with
     | some (.nodes ns) => ns.any fun n => n.address = a
     | _ => false)
  | .empty | .filling _ => false

/-! ### Taking a route and its notes (R71, R74 to R78) -/

/-- The drop entries of a route that enters the table, at the given position onward (R67, R71). -/
def routeDrops (position : Nat) : List StagedDrop → List Drop
  | [] => []
  | d :: rest => { plan := planOf d, position := position } :: routeDrops (position + 1) rest

/-- The route table takes a header and its drops (R71). -/
def takeRoute (h : RouteHeader) (l : List StagedDrop) (s : State) : State :=
  modRoute (fun _ => { state := .opened, header := some h, drops := routeDrops 1 l }) s

/-- A drop that enters at the end of route order (R77). -/
def appendDrop (p : Planning) (s : State) : State :=
  modRoute (fun r =>
    { r with drops := r.drops ++ [{ plan := p, position := r.drops.length + 1 }]
             header := r.header.map fun h => { h with count := h.count + 1 } }) s

/-- A committed drop note is applied (R75 to R78); its mark clears. -/
def applyNote (b : NoteBody) (s : State) : State :=
  match b.op with
  | .skip => modDrop b.drop (fun d => { d with state := .skipped, noteMark := false }) s
  | .restore =>
    modDrop b.drop (fun d =>
      { d with state := if d.delivered = 0 then .planned else .partly, noteMark := false }) s
  | .cancel => modDrop b.drop (fun d => { d with state := .cancelled, noteMark := false }) s
  | .add =>
    match b.plan with
    | some p => appendDrop p s
    | none => s

/-- The state a drop takes at a TICKET record (R68). -/
def dropAfter (d : DropState) (st : Status) : DropState :=
  match d, st with
  | .planned, .complete => .delivered
  | .planned, .short => .partly
  | .planned, .interrupted => .partly
  | .planned, .void => .planned
  | .partly, .complete => .delivered
  | .partly, .short => .partly
  | .partly, .interrupted => .partly
  | .partly, .void => .partly
  | .delivered, _ => .delivered
  | .skipped, _ => .skipped
  | .cancelled, _ => .cancelled

/-- The route table applies a TICKET record to its drop, steps 1 to 5 of R73. -/
def applyTicket (number : Nat) (t : TicketBody) (s : State) : State :=
  modDrop t.drop (fun d =>
    { d with delivered := d.delivered + t.net, amount := d.amount + t.due, tickets := d.tickets ++ [number]
             state := dropAfter d.state t.status, claimant := none }) s

/-- The route totals take up a TICKET record (R162). -/
def addTotal (t : TicketBody) (s : State) : State :=
  modComps (fun k =>
    { k with totals := k.totals.modify (t.product - 1) fun x =>
        { net := within top32 (x.net + t.net), count := x.count + 1 } }) s

/-- The compartment table applies a TICKET record: delivered rises, the reservation is released, the totals take it up
(R157). -/
def applyDelivery (t : TicketBody) (reservation : Nat) (s : State) : State :=
  addTotal t (modComp t.comp (fun k =>
    { k with delivered := within top32 (k.delivered + t.net), reserved := k.reserved - reservation }) s)

end Sys2Proof.Machine
end

