-- ==== Sys2Proof/Machine/Journal.lean ====
section
/-! DEFINITION. The journal controller and what its outcomes do at the sources: taking and programming appends, commit,
failure, retirement, lockout, drained marks, erases and slot reads. -/
namespace Sys2Proof.Machine

/-! ### Blocks and slots -/

def modBlock (b : Nat) (f : Block → Block) (s : State) : State :=
  { s with nv := { s.nv with array := s.nv.array.modify b f } }

def modInfo (b : Nat) (f : BlockInfo → BlockInfo) (s : State) : State :=
  modJournal (fun j => { j with blocks := j.blocks.modify b f }) s

def setSlot (b slot : Nat) (x : Slot) (s : State) : State :=
  modBlock b (fun k => { k with slots := k.slots.set slot x }) s

/-- The content of a slot. -/
def slotAt (s : State) (b slot : Nat) : Slot :=
  match s.nv.array[b]? with
  | some k => (k.slots[slot]?).getD .erased
  | none => .erased

/-- The state of a block in the block table. -/
def blockState (s : State) (b : Nat) : BlockState :=
  match s.journal.blocks[b]? with
  | some i => i.state
  | none => .retired

/-- The number of the CURRENT block and its write point (R166: at most one). -/
def currentBlock (s : State) : Option (Nat × Nat) :=
  match s.journal.blocks.findIdx? fun i => i.state = .current with
  | some b => some (b, ((s.journal.blocks[b]?).map BlockInfo.writePoint).getD 0)
  | none => none

/-- Of two candidate blocks with a figure each, the one with the lower figure, the earlier among equals. -/
def lowerOf (best : Option (Nat × Nat)) (n figure : Nat) : Option (Nat × Nat) :=
  match best with
  | some (m, f) => if figure < f then some (n, figure) else some (m, f)
  | none => some (n, figure)

/-- The ERASED block with the lowest erase count, the lowest number among equals (R172). -/
def freshBlock (s : State) : Option Nat :=
  ((s.journal.blocks.zipIdx.foldl
    (fun best x => if x.1.state = BlockState.erased then lowerOf best x.2 x.1.erases else best) none).map Prod.fst)

/-- The index entry of a retained sequence. -/
def indexOf (s : State) (seq : Nat) : Option IndexEntry := s.journal.index.find? fun e => e.seq = seq

/-! ### Retirement (R174) -/

/-- The index entries of a block's records that its read-back finds UNREADABLE. -/
def lostEntries (s : State) (b : Nat) (failed : Option Nat) (report : RetireReport) : List IndexEntry :=
  s.journal.index.filter fun e =>
    e.block = b && failed != some e.slot && (report.lost.contains e.slot || slotAt s b e.slot = .unreadable)

/-- Retire a block, steps 1 to 4 of R174; an ERASE cause has no read-back (R177). -/
def retire (b : Nat) (cause : RetireCause) (failed : Option Nat) (report : RetireReport) (s : State) : State :=
  let lost := match cause with
    | .program => lostEntries s b failed report
    | .erase => []
  let newest := s.journal.newestSeq
  let s := modInfo b (fun i => { i with state := .retired, writePoint := 0 }) s
  let s := modBlock b (fun k =>
    { k with slots := lost.foldl (fun l e => l.set e.slot .unreadable) k.slots }) s
  let details : Retirement := { cause := cause, newest := newest, lost := lost.length, failedSlot := failed }
  let s := if report.markOk then modBlock b (fun k => { k with retired := some details }) s else s
  modJournal (fun j =>
    { j with index := j.index.filter fun e => !lost.contains e
             lastRetired := some (b, cause, newest), lostTotal := j.lostTotal + lost.length }) s

/-! ### What an append programs (R168, R172) -/

/-- The body an append carries; a channel's append carries its pending record, under the next ticket number. -/
def appendBody (s : State) : Append → Option Body
  | .manage _ b => some b
  | .close c =>
    match (s.ch c).ctx.pending with
    | some (.ticket t) => some (.ticket (s.journal.newestTicket + 1) t)
    | some (.proving p _) => some (.proving p)
    | none => none
  | .mark _ => none

/-- The audit counters after a record (R168, R190). -/
def countersAfter (m : Metrology) : Body → Word16 × Word16
  | .audit a =>
    match a.counter with
    | .calibration => (m.cal + 1, m.cfg)
    | .configuration => (m.cal, m.cfg + 1)
  | .ticket _ _ | .dropNote _ | .load _ | .routeOpen _ _ _ _ | .routeClose _ | .proving _ => (m.cal, m.cfg)

/-- The record of a body, its header filled in as the program begins (R168). -/
def makeRecord (s : State) (b : Body) : Record :=
  { seq := s.journal.newestSeq + 1, time := s.power.clock, clockUnset := s.power.unset
    cal := (countersAfter s.met b).1, cfg := (countersAfter s.met b).2
    totA := s.chA.meter.totalizer, totB := s.chB.meter.totalizer
    ticketHigh := match b with
      | .ticket n _ => n
      | .dropNote _ | .load _ | .routeOpen _ _ _ _ | .routeClose _ | .audit _ | .proving _ => s.journal.newestTicket
    body := b }

/-- A record has a number to take (R172, step 2). -/
def numberLeft (s : State) (b : Body) : Bool :=
  s.journal.newestSeq < 4294967295 &&
  match b with
  | .ticket n _ => n ≤ 99999999
  | .dropNote _ | .load _ | .routeOpen _ _ _ _ | .routeClose _ | .audit _ | .proving _ => true

/-- The AUDIT record of CLEAR LOCKOUT is exempt from the reserve test (R171). -/
def exempt : Body → Bool
  | .audit a => a.change = .lockoutClear
  | .ticket _ _ | .dropNote _ | .load _ | .routeOpen _ _ _ _ | .routeClose _ | .proving _ => false

/-! ### CLEAR LOCKOUT (R152) -/

/-- Hand the next append of a CLEAR LOCKOUT: the oldest FAULTED context's record, or else the AUDIT record, which counts
the records that this CLEAR LOCKOUT committed (notes/assumptions/64.md). -/
def clearNext (s : State) : State :=
  match s.ctl.clearing with
  | none => s
  | some k =>
    match s.ctl.faultOrder with
    | c :: _ => handAppend (.close c) s
    | [] =>
      handAppend (.manage k.station (.audit
        { change := .lockoutClear, counter := .configuration, station := k.station, old := .storageLockout
          new := .noLockout, provingSeq := 0, observed := 0, committed := k.committed.length })) s

/-- A record of a CLEAR LOCKOUT has committed. -/
def clearCommitted (c : Chan) (number : Nat) (s : State) : State :=
  match s.ctl.clearing with
  | none => s
  | some k =>
    clearNext (modCtl (fun x =>
      { x with clearing := some { k with committed := k.committed ++ [(c, number)] } }) s)

/-- A CLEAR LOCKOUT stops at a failed append (R152). -/
def clearFailed (code : RefCode) (s : State) : State :=
  match s.ctl.clearing with
  | none => s
  | some k => reply k.station (some code) (.committed k.committed) (modCtl (fun x => { x with clearing := none }) s)

/-! ### The end of an append at its source -/

/-- The staging area returns to FILLING with its content (R28). -/
def refill (s : State) : State :=
  modStore (fun t =>
    { t with staging := match t.staging with
               | .activating l => .filling l
               | .filling l => .filling l
               | .empty => .empty }) s

/-- Answer the close requester of a channel, if one waits, and let it be none. -/
def answerRequester (c : Chan) (refusal : Option RefCode) (result : Result) (s : State) : State :=
  let requester := (s.ch c).ctx.requester
  let s := modCtx c (fun x => { x with requester := none }) s
  match requester with
  | some st => reply st refusal result s
  | none => s

/-- A channel's append has failed or was withdrawn (R108, R148, R150): a CLOSING context becomes FAULTED, a FAULTED one
stays so. Its notice is placed before the requester's reply (notes/assumptions/73.md). -/
def failClose (c : Chan) (code : RefCode) (s : State) : State :=
  let s := match (s.ch c).ctx.state with
    | .closing => enterFaulted c s
    | .faulted => modCtx c (fun x => { x with retryMark := false }) s
    | .idle | .armed | .flowing | .settling | .paused | .held => s
  clearFailed code (answerRequester c (some code) .nothing s)

/-- A management append has failed, was returned or was withdrawn: its owner leaves its state as before and its request
is refused (R71, R74, R82, R150, R161, R171, R189). -/
def failManage (station : Byte) (b : Body) (code : RefCode) (s : State) : State :=
  match b with
  | .dropNote n => refuse station code (modDrop n.drop (fun d => { d with noteMark := false }) s)
  | .load l => refuse station code (modComp l.comp (fun k => { k with loadMark := false }) s)
  | .routeOpen _ _ _ _ => refuse station code (refill s)
  | .routeClose _ => refuse station code (modRoute (fun r => { r with state := .opened }) s)
  | .audit a =>
    match a.change with
    | .correction | .nodeMap | .station => refuse station code (refill s)
    | .setting _ => refuse station code s
    | .lockoutClear => clearFailed code s
  | .ticket _ _ | .proving _ => s

/-- The figures of a release (R179). -/
def releaseResult (r : Release) (s : State) : Result := .released r.marked r.memory (drainCursor s.journal)

/-- A release ends, answered with its figures (R179, R150). -/
def endRelease (refusal : Option RefCode) (s : State) : State :=
  match s.journal.release with
  | some r => reply r.station refusal (releaseResult r s) (modJournal (fun j => { j with release := none }) s)
  | none => s

/-- An append has failed or was withdrawn, whatever its source. -/
def failAppend (code : RefCode) (a : Append) (s : State) : State :=
  match a with
  | .close c => failClose c code s
  | .manage st b => failManage st b code s
  | .mark _ => endRelease (some code) s

/-! ### Lockout (R149, R150) -/

/-- A context is FAULTED. -/
def anyFaulted (s : State) : Bool := s.chA.ctx.state = .faulted || s.chB.ctx.state = .faulted

/-- Withdraw a channel's waiting append. -/
def withdrawClose (c : Chan) (s : State) : State :=
  modJournal (fun j => { j with waiting := j.waiting.filter fun a => a != .close c }) s

/-- The conversion of one context at entry to a STORAGE lockout (R150). -/
def convert (c : Chan) (s : State) : State :=
  match (s.ch c).ctx.state with
  | .idle => s
  | .armed | .flowing | .settling | .paused | .held =>
    if (s.ch c).ctx.state = .armed && !counted (s.ch c).meter then cancel c s
    else
      let s := if (s.ch c).ctx.state = .flowing then endEpisode c .hold s else s
      enterFaulted c (buildAndEnter c .lockout .faulted (gateClose c s))
  | .closing | .faulted => failClose c .lockout (withdrawClose c s)

/-- Entry to a STORAGE lockout: contexts A and B are converted, then the waiting management appends are withdrawn in the
order they waited (R150). That both contexts come before the withdrawals is the model's choice
(notes/assumptions/61.md). -/
def enterLockout (s : State) : State :=
  let s := modCtl (fun k => { k with lockout := .storage }) s
  let s := convert .b (convert .a s)
  let withdrawn := s.journal.waiting
  withdrawn.foldl (fun s a => failAppend .lockout a s) (modJournal (fun j => { j with waiting := [] }) s)

/-- An append has failed: its source is told, and then lockout follows when a context was FAULTED before (R149, R173,
notes/assumptions/73.md). -/
def appendFailed (a : Append) (s : State) : State :=
  let before := anyFaulted s
  let s := failAppend .storage a s
  if before && s.power.state != .shutdown && s.ctl.lockout = .none then enterLockout s else s

/-! ### Commit at the source -/

/-- The name a PRINT frame carries: the product's, or spaces (R109). -/
def productName (s : State) (code : Nat) : List Byte :=
  match productOf s code with
  | some e => e.name
  | none => List.replicate 12 0x20

/-- The PRINT frame of a TICKET record as it is built now (R109, R110). -/
def printOf (s : State) (c : Chan) (r : Record) (product : Nat) (copy : Bool) : Print :=
  { chan := c, dst := s.store.settings.printer, record := r, copy := copy, name := productName s product }

/-- The steps after the commit of a TICKET record (R107); in SHUTDOWN no PRINT frame is built (R115). -/
def commitTicket (c : Chan) (r : Record) (number : Nat) (t : TicketBody) (s : State) : State :=
  let requester := (s.ch c).ctx.requester
  let s := applyDelivery t (s.ch c).ctx.reservation (applyTicket number t s)
  let s := if s.power.state = .shutdown || s.store.settings.printer = 0 then s
    else sendPrint (printOf s c r t.product false) s
  let s := toIdle c s
  let s := match requester with
    | some st => accept st (.ticket number) s
    | none => s
  clearCommitted c number s

/-- The proving result of a committed PROVING record (R192). -/
def provingOf (seq : Nat) (p : ProvingBody) (sound : Bool) : Option ProvingResult :=
  if sound then some { seq := seq, pulses := p.fwd - p.rev, temp := p.temp } else none

/-- The metrology unit takes up a committed PROVING record (R192). -/
def takeProving (c : Chan) (seq : Nat) (p : ProvingBody) (sound : Bool) (s : State) : State :=
  modMet (fun m =>
    let m := match c with
      | .a => { m with resultA := provingOf seq p sound }
      | .b => { m with resultB := provingOf seq p sound }
    { m with proposal := m.proposal.filter fun q => q.chan != c }) s

/-- The judgement kept with a channel's pending PROVING record (R192). -/
def pendingSound (s : State) (c : Chan) : Bool :=
  match (s.ch c).ctx.pending with
  | some (.proving _ sound) => sound
  | some (.ticket _) | none => false

/-- The steps after the commit of a PROVING record (R113, R192); the notice is placed before the reply
(notes/assumptions/73.md). -/
def commitProving (c : Chan) (r : Record) (p : ProvingBody) (s : State) : State :=
  let requester := (s.ch c).ctx.requester
  let s := toIdle c (takeProving c r.seq p (pendingSound s c) s)
  let s := match requester with
    | some st => accept st (.sequence r.seq) s
    | none => s
  clearCommitted c r.seq s

/-- The opening of a route at the commit of its ROUTE OPEN record (R71, R162). -/
def openRouteNow (station : Byte) (s : State) : State :=
  match s.store.staging with
  | .activating l =>
    match tableOf l.kind l.entries with
    | some (.route h ds) =>
      let s := takeRoute h ds s
      let s := modComps (fun k => { k with totals := List.replicate 8 {} }) s
      accept station (.routeOpened h.id ds.length) (modStore (fun t => { t with staging := .empty }) s)
    | _ => s
  | .empty | .filling _ => s

/-- The audit counters after a commit: an AUDIT record raises the one it names, in SHUTDOWN too, as its header already
shows (R189, R190). -/
def takeCounters (r : Record) (s : State) : State :=
  match r.body with
  | .audit _ => modMet (fun m => { m with cal := r.cal, cfg := r.cfg }) s
  | .ticket _ _ | .dropNote _ | .load _ | .routeOpen _ _ _ _ | .routeClose _ | .proving _ => s

/-- The end of a lockout takes effect at the commit of CLEAR LOCKOUT's AUDIT record, in SHUTDOWN too (R152, R189). -/
def endLockout (r : Record) (s : State) : State :=
  match r.body with
  | .audit a => if a.change = .lockoutClear then modCtl (fun k => { k with lockout := .none }) s else s
  | .ticket _ _ | .dropNote _ | .load _ | .routeOpen _ _ _ _ | .routeClose _ | .proving _ => s

/-- A committed AUDIT record: the write of the affected region starts; a CLEAR LOCKOUT is answered (R152, R189). -/
def commitAudit (station : Byte) (r : Record) (a : AuditBody) (s : State) : State :=
  let counter := match a.counter with
    | .calibration => r.cal
    | .configuration => r.cfg
  match a.change with
  | .correction | .nodeMap | .station =>
    modStore (fun t => { t with tableWrite := some { station := station, audit := some (r.seq, counter) } }) s
  | .setting m =>
    let v := match a.new with
      | .setting v => v
      | .table _ _ | .storageLockout | .noLockout => 0
    modStore (fun t =>
      { t with settingsWrites := t.settingsWrites ++
                 [{ station := station, change := .metrology m v, audit := some (r.seq, counter)
                    factor := a.provingSeq != 0 }] }) s
  | .lockoutClear =>
    match s.ctl.clearing with
    | some k =>
      accept station (.cleared k.committed r.seq)
        (modCtl (fun x => { x with clearing := none }) s)
    | none => s

/-- A committed management record at its owner (R71, R74, R82, R161, R189). -/
def commitManage (station : Byte) (r : Record) (s : State) : State :=
  match r.body with
  | .dropNote n =>
    let s := applyNote n s
    accept station (.dropState (((dropOf s n.drop).map Drop.state).getD .planned)) s
  | .load l =>
    let s := modComp l.comp (fun k =>
      { k with product := l.product, base := l.base, delivered := 0, loadMark := false }) s
    accept station (.loaded r.seq (compView (compOf s l.comp))) s
  | .routeOpen _ _ _ _ => openRouteNow station s
  | .routeClose b =>
    let s := modRoute (fun _ => {}) s
    accept station (.routeClosed b) (modComps (fun k => { k with totals := List.replicate 8 {} }) s)
  | .audit a => commitAudit station r a s
  | .ticket _ _ | .proving _ => s

/-- The source of a committed append is told (R172, step 4). In SHUTDOWN the owners of management records are not: a
committed record among them is applied at the next start-up (R41, R85, R165); the audit counters alone follow it (R190),
and the lockout that CLEAR LOCKOUT's AUDIT record ends (R189). -/
def committed (a : Append) (r : Record) (s : State) : State :=
  match a with
  | .close c =>
    match r.body with
    | .ticket n t => commitTicket c r n t s
    | .proving p => commitProving c r p s
    | .dropNote _ | .load _ | .routeOpen _ _ _ _ | .routeClose _ | .audit _ => s
  | .manage st _ =>
    let s := endLockout r (takeCounters r s)
    if s.power.state = .shutdown then s else commitManage st r s
  | .mark _ => s

/-! ### The arbiter (R170 to R173) -/

/-- The block a record goes into is the CURRENT one, its write point at the record's slot (R172, step 1; R173). -/
def takeBlock (block slot : Nat) (s : State) : State :=
  modInfo block (fun i => { i with state := .current, writePoint := slot }) s

/-- Begin the program of a record in a slot; in SHUTDOWN it spends one of the three programs (R201). -/
def beginProgram (a : Append) (b : Body) (block slot : Nat) (retry : Bool) (s : State) : State :=
  let s := modJournal (fun j => { j with busy := .programming a (makeRecord s b) block slot retry }) s
  if s.power.state = .shutdown then modPower (fun p => { p with budget := p.budget - 1 }) s else s

/-- In SHUTDOWN a program needs one of those left in the hold-up budget (R201). -/
def budgetLeft (s : State) : Bool := s.power.state != .shutdown || s.power.budget != 0

/-- The slot a record goes to: the next of the CURRENT block, or slot 0 of a fresh one (R172, step 1). -/
def nextSlot (s : State) : Option (Nat × Nat) :=
  match currentBlock s with
  | some x => some x
  | none => (freshBlock s).map fun b => (b, 0)

/-- Program the append the arbiter has taken (R172); with no slot, number or program left it fails at once (R173). The
slot's block is CURRENT from step 1 on, also where step 2 then finds no number. -/
def startAppend (a : Append) (b : Body) (s : State) : State :=
  if budgetLeft s then
    match nextSlot s with
    | some (block, slot) =>
      let s := takeBlock block slot s
      if numberLeft s b then beginProgram a b block slot false s else appendFailed a s
    | none => appendFailed a s
  else appendFailed a s

/-- A record of a RETIRED block is drained in working memory (R180). -/
def drainInMemory (seq : Nat) (s : State) : State :=
  modJournal (fun j =>
    { j with memDrains := j.memDrains ++ [seq]
             release := j.release.map fun r => { r with memory := r.memory + 1 } }) s

/-- The release goes on through the index in ascending sequence: the next record to mark joins the management queue,
records of RETIRED blocks are drained in working memory, and at the end the release is answered (R179, R180). -/
def releaseScan (target : Nat) : List IndexEntry → State → State
  | [], s => endRelease none s
  | e :: rest, s =>
    if decide (e.seq ≤ target) && !drainedEntry s.journal e then
      if blockState s e.block = .retired then releaseScan target rest (drainInMemory e.seq s)
      else handAppend (.mark e.seq) s
    else releaseScan target rest s

/-- The release in progress, if any, goes on (R179). -/
def releaseNext (s : State) : State :=
  match s.journal.release with
  | some r => releaseScan r.target s.journal.index s
  | none => s

/-- A drained mark's turn (R179): a record that has left the index is passed over, and one whose block has been retired
is drained in working memory. -/
def startMark (seq : Nat) (s : State) : State :=
  match indexOf s seq with
  | some e =>
    if blockState s e.block = .retired then releaseNext s
    else modJournal (fun j => { j with busy := .marking seq e.block e.slot false }) s
  | none => releaseNext s

/-- Give the oldest waiting append its turn (R170, R171). -/
def takeAppend (a : Append) (s : State) : State :=
  match a with
  | .mark seq => startMark seq s
  | .close _ =>
    match appendBody s a with
    | some b => startAppend a b s
    | none => s
  | .manage st b =>
    if exempt b || accepts s then startAppend a b s else failManage st b .journalFull s

/-- The arbiter may take an append: the part is ON or in SHUTDOWN, nothing is programming or erasing, and no slot read
stands before it (R170, R178). -/
def arbiterFree (s : State) : Bool :=
  (s.power.state = .on || s.power.state = .shutdown) && s.journal.busy = .idle && s.journal.erasing = none &&
  s.journal.reads.isEmpty

/-- The arbiter takes the waiting append that has waited longest (R170). -/
def arbiterStep (s : State) : State :=
  match s.journal.waiting with
  | a :: rest => if arbiterFree s then takeAppend a (modJournal (fun j => { j with waiting := rest }) s) else s
  | [] => s

/-- The anchors after a commit (R172, step 4). -/
def anchorsAfter (seq : Nat) (b : Body) (j : Journal) : Journal :=
  match b with
  | .routeOpen _ _ _ _ => { j with routeAnchor := some seq }
  | .routeClose _ => { j with routeAnchor := none }
  | .load l => { j with compAnchors := j.compAnchors.set (l.comp - 1) (some seq) }
  | .ticket _ _ | .dropNote _ | .audit _ | .proving _ => j

/-- A record has committed in a slot: the numbers, the index, the write point and the anchors follow (R172, step 4). -/
def commitRecord (r : Record) (block slot : Nat) (s : State) : State :=
  let s := setSlot block slot (.written r false) s
  let s := modInfo block (fun i =>
    { i with writePoint := slot + 1, state := if slot = 15 then .filled else i.state }) s
  let entry : IndexEntry := { seq := r.seq, kind := bodyKind r.body, block := block, slot := slot, drained := false }
  modJournal (fun j => anchorsAfter r.seq r.body
    { j with busy := .idle, newestSeq := r.seq, newestTicket := r.ticketHigh, index := j.index ++ [entry] }) s

/-- What a failed program leaves in its slot (R174). -/
def leftSlot (r : Record) : SlotLeft → Slot
  | .erased => .erased
  | .written => .written r false
  | .unreadable => .unreadable

/-- A record program has ended (R172, R173): commit; or retirement, and a retry in a fresh block or append failure. -/
def programEnded (ok : Bool) (left : SlotLeft) (report : RetireReport) (s : State) : State :=
  match s.journal.busy with
  | .programming a r block slot retry =>
    if ok then committed a r (commitRecord r block slot s)
    else
      let s := retire block .program (some slot) report (setSlot block slot (leftSlot r left) s)
      let s := modJournal (fun j => { j with busy := .idle }) s
      match freshBlock s with
      | some b =>
        if !retry && budgetLeft s then beginProgram a r.body b 0 true (takeBlock b 0 s) else appendFailed a s
      | none => appendFailed a s
  | .idle | .marking _ _ _ _ => s

/-- Set a record's drained mark in its slot. -/
def markSlot : Slot → Slot
  | .written r _ => .written r true
  | .erased => .erased
  | .unreadable => .unreadable

/-- A drained mark program has ended (R179): the mark is set; or it is tried once more; or the block is retired. -/
def markEnded (ok : Bool) (report : RetireReport) (s : State) : State :=
  match s.journal.busy with
  | .marking seq block slot second =>
    if ok then
      let s := modBlock block (fun k => { k with slots := k.slots.modify slot markSlot }) s
      releaseNext (modJournal (fun j =>
        { j with busy := .idle
                 index := j.index.map fun e => if e.seq = seq then { e with drained := true } else e
                 release := j.release.map fun r => { r with marked := r.marked + 1 } }) s)
    else if second then
      releaseNext (retire block .program none report (modJournal (fun j => { j with busy := .idle }) s))
    else modJournal (fun j => { j with busy := .marking seq block slot true }) s
  | .idle | .programming _ _ _ _ _ => s

/-! ### Erase (R176, R177) -/

/-- The sequences and drained marks of a block's WRITTEN slots (R176). -/
def writtenIn (k : Block) : List (Nat × Bool) :=
  k.slots.filterMap fun x =>
    match x with
    | .written r d => some (r.seq, d)
    | .erased | .unreadable => none

/-- The sequence of the newest ROUTE CLOSE record indexed; 0 when there is none. -/
def newestRouteClose (s : State) : Nat :=
  ((s.journal.index.filter fun e => e.kind = .routeClose).map (·.seq)).foldl max 0

/-- The sequences of the records a block holds: those of its WRITTEN slots, and those still indexed in it whose slot a read
has found UNREADABLE (R176, R178). -/
def heldIn (s : State) (b : Nat) (k : Block) : List Nat :=
  (writtenIn k).map Prod.fst ++ (s.journal.index.filter fun e => e.block = b).map (·.seq)

/-- A sequence lies below an anchor, where it is present (R176). -/
def belowAnchor (seq : Nat) : Option Nat → Bool
  | some a => seq < a
  | none => true

/-- A record that no anchor retains, and that is neither the newest nor the newest ROUTE CLOSE record (R176). -/
def owedToNobody (s : State) (seq : Nat) : Bool :=
  belowAnchor seq s.journal.routeAnchor && s.journal.compAnchors.all (belowAnchor seq) &&
  seq != newestRouteClose s && seq != s.journal.newestSeq

/-- A block whose records are drained and owed to nobody (R176). -/
def erasable (s : State) (b : Nat) (k : Block) : Bool :=
  (blockState s b = .filled || blockState s b = .unsettled) && (writtenIn k).all Prod.snd &&
  (heldIn s b k).all (owedToNobody s)

/-- The order in which erasable blocks are taken: an UNSETTLED block with no WRITTEN slot first, then by the sequence of
the newest record (R177). -/
def eraseFigure (s : State) (b : Nat) (k : Block) : Nat :=
  if blockState s b = .unsettled && (writtenIn k).isEmpty then 0
  else (heldIn s b k).foldl max 0 + 1

/-- The block the erase engine takes (R177). -/
def eraseChoice (s : State) : Option Nat :=
  ((s.nv.array.zipIdx.foldl
    (fun best x => if erasable s x.2 x.1 then lowerOf best x.2 (eraseFigure s x.2 x.1) else best) none).map Prod.fst)

/-- When the erase engine may start an erase (R177). -/
def eraseReady (s : State) : Bool :=
  s.power.state = .on && s.ctl.lockout != .reconstruction && s.journal.waiting.isEmpty && s.journal.busy = .idle &&
  s.journal.erasing = none

/-- The erase engine starts an erase: the block becomes ERASING and its records leave the index (R177). -/
def startErase (s : State) : State :=
  if eraseReady s then
    match eraseChoice s with
    | some b =>
      modJournal (fun j => { j with erasing := some b, index := j.index.filter fun e => e.block != b })
        (modInfo b (fun i => { i with state := .erasing }) s)
    | none => s
  else s

/-- What the slots of a block hold after an erase that was abandoned or failed: a free value per slot. -/
def leftSlots (n : Nat) (slots : List Slot) : List Slot :=
  slots.zipIdx.map fun x =>
    match Config.eraseLeft n x.2 with
    | .erased => .erased
    | .written => x.1
    | .unreadable => .unreadable

/-- An erase has ended (R177): the block becomes ERASED with its erase count raised, or it is retired. -/
def eraseEnded (ok markOk : Bool) (s : State) : State :=
  match s.journal.erasing with
  | some b =>
    let s := modJournal (fun j => { j with erasing := none }) s
    if ok then
      let count := within 65535 (((s.journal.blocks[b]?).map BlockInfo.erases).getD 0 + 1)
      modBlock b (fun _ => { erases := count })
        (modInfo b (fun i => { i with state := .erased, erases := count, writePoint := 0 }) s)
    else
      let n := s.free
      let s := modBlock b (fun k => { k with slots := leftSlots n k.slots }) { s with free := s.free + 1 }
      retire b .erase none { lost := [], markOk := markOk } s
  | none => s

/-- SHUTDOWN abandons an erase in progress: the header no longer passes its check, and the slots hold what the array
left (R177). -/
def abandonErase (s : State) : State :=
  match s.journal.erasing with
  | some b =>
    let n := s.free
    modJournal (fun j => { j with erasing := none })
      (modBlock b (fun k => { k with headerOk := false, slots := leftSlots n k.slots }) { s with free := s.free + 1 })
  | none => s

/-! ### Slot reads (R111, R178) -/

/-- The channel and product of a TICKET record. -/
def ticketOf (r : Record) : Option TicketBody :=
  match r.body with
  | .ticket _ t => some t
  | .dropNote _ | .load _ | .routeOpen _ _ _ _ | .routeClose _ | .audit _ | .proving _ => none

/-- A REPRINT whose record has been read: check 6 of R111, then the frame is placed. -/
def reprintRead (station : Byte) (r : Record) (s : State) : State :=
  match ticketOf r with
  | some t =>
    if s.store.settings.printer = 0 then refuse station .state s
    else if s.line.cwait.any (isPrintOf t.chan) || (s.ch t.chan).heldPrint.isSome then refuse station .busy s
    else accept station .nothing (sendPrint (printOf s t.chan r t.product true) s)
  | none => refuse station .notFound s

/-- A slot read has ended (R178): not retained, unreadable, or answered. Of several reads that wait, the oldest is made first
(notes/assumptions/70.md). -/
def readEnded (readable : Bool) (s : State) : State :=
  match s.journal.reads, s.journal.busy, s.journal.erasing with
  | q :: rest, .idle, none =>
    let s := modJournal (fun j => { j with reads := rest }) s
    match indexOf s q.seq with
    | none => refuse q.station .notFound s
    | some e =>
      match slotAt s e.block e.slot, readable with
      | .written r d, true =>
        if q.reprint then reprintRead q.station r s
        else accept q.station (.record r d (blockState s e.block = .retired)) s
      | _, _ =>
        let s := setSlot e.block e.slot .unreadable s
        let s := modJournal (fun j => { j with unreadableReads := j.unreadableReads + 1 }) s
        reply q.station (some .storage) (.sequence q.seq) s
  | _, _, _ => s

end Sys2Proof.Machine
end

