-- ==== Sys2Proof/Machine/Supply.lean ====
section
/-! DEFINITION. The supply monitor's operations (classing, power-on, standby and waking, shutdown, restart) and the end
of a store write, which may change what the supply is classed against. -/
namespace Sys2Proof.Machine

/-! ### Levels (R199) -/

/-- The LOW step in mV for a 12 V system (R39). -/
def lowStep12 (step : Nat) : Nat := 10500 + 500 * step

/-- The LOW step of the settings in mV. -/
def lowStep (t : Settings) : Nat :=
  match t.system with
  | .v12 => lowStep12 t.lowStep
  | .v24 => 2 * lowStep12 t.lowStep

/-- The hysteresis in mV. -/
def hysteresis (t : Settings) : Nat :=
  match t.system with
  | .v12 => 500
  | .v24 => 1000

/-- The BROWN level in mV. -/
def brownLevel (t : Settings) : Nat :=
  match t.system with
  | .v12 => 9000
  | .v24 => 18000

/-- The level after classing a voltage: it changes only at the crossings, and BROWN stays (R199). -/
def classLevel (t : Settings) (level : SupplyLevel) (mv : Nat) : SupplyLevel :=
  match level with
  | .brown => .brown
  | .normal => if mv ≤ brownLevel t then .brown else if mv < lowStep t then .low else .normal
  | .low => if mv ≤ brownLevel t then .brown else if lowStep t + hysteresis t ≤ mv then .normal else .low

/-! ### OFF, power-on, restart -/

/-- The part goes OFF: working memory is lost (R201, R202). -/
def goOff (s : State) : State := powerOnValues s

/-- The part enters STARTING with every block at its power-on values (R202); the supply is classed against the 12 V
levels with LOW step 2. -/
def enterStarting (level : SupplyLevel) (s : State) : State :=
  let s := powerOnValues s
  modPower (fun p => { p with state := .starting, level := classLevel s.store.settings level s.pins.voltage }) s

/-- The restart begins when the RESTART reply has been sent and no erase is in progress (R203). -/
def restartWhenReady (s : State) : State :=
  if s.req.restart = some true && s.journal.erasing = none then enterStarting s.power.level s else s

/-! ### SHUTDOWN (R115, R185, R201) -/

/-- Step 1: both ports stop taking frames, requests in progress receive no reply, frames in common places and the
waiting frames and held prints are discarded (R22, R110, R201). -/
def shutPorts (s : State) : State :=
  let s := modPower (fun p => { p with state := .shutdown, level := .brown, standby := none, budget := 3 }) s
  let s := modReq (fun _ => {}) s
  let s := modCh .a (fun x => { x with heldPrint := none }) (modCh .b (fun x => { x with heldPrint := none }) s)
  modLine (fun l =>
    { l with cq := l.cq.filter (·.reserved), cwait := [], fq := l.fq.filter fun f => !isForward f }) s

/-- Step 3: an erase is abandoned; management appends and marks not yet taken, reads, a CLEAR LOCKOUT and the settings
writes not yet started are abandoned (R41, R177, R185). The settings write at the front of the queue counts as started
(notes/assumptions/52.md). The load mark of an abandoned LOAD, the note mark of an abandoned drop note and the state CLOSING
of an abandoned ROUTE CLOSE stay until OFF (R85, R165, notes/assumptions/62.md). -/
def shutJournal (s : State) : State :=
  let s := modJournal (fun j =>
    { j with waiting := j.waiting.filter fun a => match a with
               | .close _ => true
               | .manage _ _ | .mark _ => false
             release := none, reads := [] }) (abandonErase s)
  let s := modCtl (fun k => { k with clearing := none }) s
  modStore (fun t => { t with settingsWrites := t.settingsWrites.take 1 }) s

/-- Step 4 for an open context (R115). -/
def shutContext (c : Chan) (s : State) : State :=
  match (s.ch c).ctx.state with
  | .idle | .closing | .faulted => s
  | .armed | .flowing | .settling | .paused | .held =>
    if (s.ch c).ctx.state = .armed && !counted (s.ch c).meter then cancel c s
    else
      let s := if (s.ch c).ctx.state = .flowing then endEpisode c .shutdown s else s
      beginClose c .shutdown none s

/-- A channel's append is waiting. -/
def closeWaits (s : State) (c : Chan) : Bool := s.journal.waiting.contains (.close c)

/-- Step 4 for a FAULTED context: its pending record is handed once more, unless an append of it is already waiting (R115,
R153, R201, notes/assumptions/29.md). -/
def shutFaulted (c : Chan) (s : State) : State :=
  if (s.ch c).ctx.state = .faulted && !closeWaits s c then handAppend (.close c) s else s

/-- SHUTDOWN begins, steps 1 to 4 of R201. Channel A's CLOSED order is issued before channel B's
(notes/assumptions/51.md). -/
def beginShutdown (s : State) : State :=
  let faultedA : Bool := s.chA.ctx.state = .faulted
  let faultedB : Bool := s.chB.ctx.state = .faulted
  let s := issueOrder .b .closed (issueOrder .a .closed (shutPorts s))
  let s := shutContext .b (shutContext .a (shutJournal s))
  let s := if faultedA then shutFaulted .a s else s
  if faultedB then shutFaulted .b s else s

/-! ### Classing the supply -/

/-- Class the present voltage (R40, R138, R199, R202). Channel A is handed SUPPLY before channel B
(notes/assumptions/51.md). -/
def classSupply (s : State) : State :=
  let level := classLevel s.store.settings s.power.level s.pins.voltage
  let fresh : Bool := s.power.level != level
  match s.power.state with
  | .off | .shutdown => s
  | .starting =>
    if fresh && level = .brown && s.power.phase = .reconstructing then goOff s
    else modPower (fun p => { p with level := level }) s
  | .on | .standby =>
    if fresh && level = .brown then beginShutdown s
    else
      let s := modPower (fun p => { p with level := level }) s
      if fresh && level = .low then handCauses .b [.supply] 0 (handCauses .a [.supply] 0 s) else s

/-- With BROWN latched before reconstruction, the supply has risen to the BROWN level plus hysteresis: STARTING goes on
and the supply is classed anew from below (R202). -/
def resumeStarting (s : State) : State :=
  modPower (fun p =>
    { p with level := classLevel s.store.settings .low s.pins.voltage
             phase := if p.phase = .heldBrown then .reconstructing else p.phase }) s

/-- The supply sense shows a voltage (R199, R202). Any voltage of 9.5 V or more shown in OFF is power-on, also when the
supply never fell below it (notes/assumptions/65.md). -/
def senseVoltage (mv : Nat) (s : State) : State :=
  let s := { s with pins := { s.pins with voltage := mv } }
  match s.power.state with
  | .off => if 9500 ≤ mv then enterStarting .normal s else s
  | .starting =>
    if mv < 9000 then goOff s
    else if s.power.level = .brown && s.power.phase != .reconstructing then
      if brownLevel s.store.settings + hysteresis s.store.settings ≤ mv then resumeStarting s else s
    else classSupply s
  | .on | .standby | .shutdown => classSupply s

/-! ### STANDBY (R136, R200) -/

/-- The part enters STANDBY: the answer timers stop. -/
def enterStandby (s : State) : State :=
  modGate .b (fun g => { g with timer := false })
    (modGate .a (fun g => { g with timer := false })
      (modPower (fun p => { p with state := .standby, standby := none }) s))

/-- On waking, a gate resends its SENT outstanding order as a new frame with the same number (R136). -/
def wakeGate (c : Chan) (s : State) : State :=
  match (s.ch c).gate.outstanding with
  | some o =>
    match o.phase with
    | .sent => resendOrder c o o.attempts s
    | .queued => s
  | none => s

/-- The part leaves STANDBY for ON (R200). Channel A's order is resent before channel B's (notes/assumptions/51.md). -/
def wake (s : State) : State :=
  match s.power.state with
  | .standby => startC (startF (wakeGate .b (wakeGate .a (modPower (fun p => { p with state := .on }) s))))
  | .off | .starting | .on | .shutdown => s

/-! ### Node map reset (R36) -/

/-- The address of a role on a channel in a node map. -/
def mapAddress (l : List NodeEntry) (c : Chan) (r : Role) : Option Byte :=
  (l.find? fun n => n.chan = c && n.role = r).map NodeEntry.address

/-- A channel's node of a role is another, added or removed. -/
def nodeChanged (before after : List NodeEntry) (c : Chan) (r : Role) : Bool :=
  mapAddress before c r != mapAddress after c r

/-- A new node map resets a channel (R36); it is already the active one. -/
def resetNodes (before after : List NodeEntry) (c : Chan) (s : State) : State :=
  let s := modMeter c (fun m =>
    { m with
      baseline := if nodeChanged before after c .tally then none else m.baseline
      probe := if nodeChanged before after c .probe then none else m.probe
      vapour := if nodeChanged before after c .vapour then .unknown else m.vapour
      reel := if nodeChanged before after c .reel then .unknown else m.reel }) s
  if nodeChanged before after c .valve then
    issueOrder c .closed (withdrawOrder c (modGate c (fun g => { g with outstanding := none, timer := false }) s))
  else s

/-! ### The end of a store write (R35, R39, R71, R189) -/

def modRegions (f : Regions → Regions) (s : State) : State := { s with nv := { s.nv with regions := f s.nv.regions } }

/-- The region of a table's kind takes its content, or is left failing its check. -/
def writeRegion (t : TableData) (ok : Bool) (g : Regions) : Regions :=
  match t with
  | .products l => { g with products := if ok then some l else none }
  | .prices l => { g with prices := if ok then some l else none }
  | .curves l => { g with curves := if ok then some l else none }
  | .programs l => { g with programs := if ok then some l else none }
  | .nodes l => { g with nodes := if ok then some l else none }
  | .stations l => { g with stations := if ok then some l else none }
  | .route h l => { g with route := if ok then some (h, l) else none }

/-- A table becomes the active one of its kind (R27, R35, R36, R37). A node map resets channel A before channel B
(notes/assumptions/51.md). -/
def makeActive (t : TableData) (s : State) : State :=
  match t with
  | .products l => modStore (fun x => { x with products := some l }) s
  | .prices l => modStore (fun x => { x with prices := some l }) s
  | .curves l => modStore (fun x => { x with curves := some l }) s
  | .programs l => modStore (fun x => { x with programs := programsAfter l }) s
  | .stations l => modStore (fun x => { x with stations := some l }) s
  | .nodes l =>
    let before := entriesOf s.store.nodes
    resetNodes before l .b (resetNodes before l .a (modStore (fun x => { x with nodes := some l }) s))
  | .route h l => modStore (fun x => { x with routeRegion := some (h, l) }) s

/-- The result of a request whose AUDIT record committed, or nothing (R189). -/
def auditResult (a : Option (Nat × Word16)) : Result :=
  match a with
  | some x => .audited x.1 x.2
  | none => .nothing

/-- The route flags of a ROUTE OPEN record (R71). -/
def routeOpenBody (h : RouteHeader) (count : Nat) : Body := .routeOpen h.id count h.unplanned h.ceiling

/-- The write of a staged table has ended outside SHUTDOWN (R35, R71). -/
def tableWritten (w : TableWrite) (t : TableData) (ok : Bool) (s : State) : State :=
  if ok then
    match t with
    | .route h l =>
      if s.ctl.lockout = .none then handAppend (.manage w.station (routeOpenBody h l.length)) s
      else refuse w.station .lockout (refill s)
    | .products _ | .prices _ | .curves _ | .programs _ | .nodes _ | .stations _ =>
      accept w.station (auditResult w.audit) (modStore (fun x => { x with staging := .empty }) (makeActive t s))
  else refuse w.station .storage (refill s)

/-- A table or route region write has ended. In SHUTDOWN the region alone takes it (R41, R85). -/
def tableWriteEnded (kind : TableKind) (ok : Bool) (s : State) : State :=
  match s.store.tableWrite, s.store.staging with
  | some w, .activating l =>
    if l.kind = kind then
      match tableOf l.kind l.entries with
      | some t =>
        let s := modRegions (writeRegion t ok) (modStore (fun x => { x with tableWrite := none }) s)
        if s.power.state = .shutdown then s else tableWritten w t ok s
      | none => s
    else s
  | _, _ => s

/-- The settings and metrology settings with a write's new value. -/
def changed (ch : SettingChange) (t : Settings) (m : MetSettings) : Settings × MetSettings :=
  match ch with
  | .office k v => (changeSetting k v t, m)
  | .metrology k v => (t, changeMet k v m)

/-- A settings write has ended outside SHUTDOWN: the new value is in force, the supply is classed at once, and the
request is answered (R39, R40, R189, R194). APPLY FACTOR's write clears whatever proposal is then held
(notes/assumptions/63.md). -/
def settingsWritten (w : SettingsWrite) (ok : Bool) (s : State) : State :=
  if ok then
    let v := changed w.change s.store.settings s.store.metset
    let s := modStore (fun x => { x with settings := v.1, metset := v.2 }) s
    let s := if w.factor then modMet (fun m => { m with proposal := none }) s else s
    accept w.station (auditResult w.audit) (classSupply s)
  else refuse w.station .storage s

/-- The settings region write in progress has ended; the next one waiting begins (R39), also where the new setting has just
latched BROWN (notes/assumptions/52.md). -/
def settingsWriteEnded (ok : Bool) (s : State) : State :=
  match s.store.settingsWrites with
  | w :: rest =>
    let v := changed w.change s.store.settings s.store.metset
    let s := modStore (fun x => { x with settingsWrites := rest }) s
    let s := modRegions (fun g => { g with settings := if ok then some v else none }) s
    if s.power.state = .shutdown then s else settingsWritten w ok s
  | [] => s

end Sys2Proof.Machine
end

