-- ==== Sys2Proof/Machine/Metering.lean ====
section
/-! DEFINITION. The channel meter, the stop monitor and the valve gate at work: a tally, a probe reading, a contact, a
valve answer and a cab valve order, each already handed to its channel. -/
namespace Sys2Proof.Machine

/-! ### The stop monitor (R128 to R134) -/

/-- The live figures a tally hands to the stop monitor (R61, step 4). -/
structure Figures where
  gross : Nat
  net : Nat
  rate : Nat
  amount : Nat
  deriving DecidableEq, Repr

def figuresOf (s : State) (c : Chan) : Figures :=
  { gross := liveGross s c, net := liveNet s c, rate := rateOf (s.ch c).meter.window, amount := liveDue s c }

def quantityOf (f : Figures) : Quantity → Nat
  | .net => f.net
  | .gross => f.gross
  | .rate => f.rate
  | .amount => f.amount

/-- The value a watch point compares with (R129). -/
def watchValue (w : Watch) (authorised : Nat) : Nat :=
  match w.reference with
  | .absolute => w.value
  | .fromAuthorised => authorised - w.value

/-- A watch point's condition (R129). -/
def conditionHolds (w : Watch) (f : Figures) (authorised : Nat) : Bool :=
  match w.relation with
  | .atOrAbove => watchValue w authorised ≤ quantityOf f w.quantity
  | .below => quantityOf f w.quantity < watchValue w authorised

/-- The count after a judgement; it stays within 0 to 256 (R128, R130). -/
def countAfter (w : Watch) (f : Figures) (authorised count : Nat) : Nat :=
  if conditionHolds w f authorised then stopAt 256 (count + 1) else 0

/-- A judged watch point is satisfied (R130). -/
def satisfied (w : Watch) (f : Figures) (authorised count : Nat) : Bool :=
  conditionHolds w f authorised && w.persistence + 1 ≤ countAfter w f authorised count

/-- The RATE grace has passed: a RATE watch point is not judged at the first 4 tallies of an episode (R130). -/
def gracePassed (w : Watch) (tallies : Nat) : Bool := w.quantity != .rate || 4 < tallies

/-- What one evaluation's judgement finds (R130, R131): the counts, whether A's and B's marks are set now, and whether
A's action is taken. B's action is taken whenever B fires. -/
structure Judgement where
  countA : Nat
  countB : Nat
  firesA : Bool
  actsA : Bool
  firesB : Bool
  deriving DecidableEq, Repr

/-- Judge both watch points on the figures of one tally (R130, R131). -/
def judge (p : StopProgram) (m : Monitor) (f : Figures) (authorised : Nat) : Judgement :=
  let judgedA := gracePassed p.watchA m.tallies && (p.mode = .joint || !m.firedA)
  let satA := judgedA && satisfied p.watchA f authorised m.countA
  let firesA := satA && !m.firedA
  let judgedB := gracePassed p.watchB m.tallies && !m.firedB && (p.mode != .sequence || m.firedA || firesA)
  let satB := judgedB && satisfied p.watchB f authorised m.countB
  { countA := if judgedA then countAfter p.watchA f authorised m.countA else m.countA
    countB := if judgedB then countAfter p.watchB f authorised m.countB else m.countB
    firesA := firesA
    actsA := firesA && p.mode != .joint
    firesB := satB && (p.mode != .joint || satA) }

/-- A SLOW action (R133): the limited mark, and in FLOWING a SLOW order where the ordered position is FULL. -/
def slowAction (c : Chan) (s : State) : State :=
  let s := modGate c (fun g => { g with limited := true }) s
  if (s.ch c).ctx.state = .flowing && (s.ch c).gate.position = .full then issueOrder c .slow s else s

/-- A watch point's action, by the state of the context when it reaches it (R133). -/
def takeAction (c : Chan) (a : Action) (s : State) : State :=
  match a with
  | .note =>
    modMonitor c (fun m => { m with noteSeen := true })
      (modCtx c (fun x => { x with episodes := modLastEpisode (fun e => { e with note := true }) x.episodes }) s)
  | .slow => slowAction c s
  | .close => if (s.ch c).ctx.state = .flowing then settle c .program s else s
  | .hold => handCauses c [.program] 0 s
  | .endDelivery =>
    let s := modMonitor c (fun m => { m with endFired := true }) s
    match (s.ch c).ctx.state with
    | .flowing => settle c .endAction s
    | .settling => modCtx c (fun x => { x with autoClose := true }) s
    | .idle | .armed | .paused | .held | .closing | .faulted => s

/-- The guard holds: net, or a proving run's gross, has reached the authorised volume (R134). -/
def guardHolds (s : State) (c : Chan) (f : Figures) : Bool :=
  match (s.ch c).ctx.mode with
  | .delivery => (s.ch c).ctx.authorised ≤ f.net
  | .proving => (s.ch c).ctx.authorised ≤ f.gross

/-- The guard, step 3 of an evaluation (R134). -/
def judgeGuard (c : Chan) (f : Figures) (s : State) : State :=
  if guardHolds s c f then
    let s := modMonitor c (fun m => { m with guard := true }) s
    if (s.ch c).ctx.state = .flowing then settle c .guard s else s
  else s

/-- The start-slow volume of a ticket's product in cL (R24, R126). -/
def startSlow (s : State) (c : Chan) : Nat :=
  match (s.ch c).ctx.product.bind (productOf s) with
  | some p => p.startSlow * 100
  | none => 0

/-- Step 4 of an evaluation: the gate raises SLOW to FULL once both reasons for SLOW have passed (R126). -/
def raiseOrder (c : Chan) (f : Figures) (s : State) : State :=
  let g := (s.ch c).gate
  if (s.ch c).ctx.state = .flowing && (s.ch c).ctx.mode = .delivery && g.position = .slow &&
      g.requested = some .full && !g.limited && startSlow s c ≤ f.net
  then issueOrder c .full s else s

/-- Both watch points are judged, then A's action and B's are taken (R132). Where A's action changes the context's state, the
notice of that state is produced before B's action, and B's marks come in a later one (notes/assumptions/72.md). -/
def watchStep (c : Chan) (p : StopProgram) (f : Figures) (s : State) : State :=
  let j := judge p (s.ch c).monitor f (s.ch c).ctx.authorised
  let s := modMonitor c (fun m => { m with countA := j.countA, countB := j.countB }) s
  let s := if j.firesA then modMonitor c (fun m => { m with firedA := true }) s else s
  let s := if j.actsA then takeAction c p.watchA.action s else s
  if j.firesB then takeAction c p.watchB.action (modMonitor c (fun m => { m with firedB := true }) s) else s

/-- Steps 1 and 2 of an evaluation: the episode tally count and the watch points; a proving run passes them over (R132). -/
def watchTally (c : Chan) (f : Figures) (s : State) : State :=
  match (s.ch c).ctx.mode with
  | .delivery =>
    let s := modMonitor c (fun m => { m with tallies := stopAt 65535 (m.tallies + 1) }) s
    match (s.ch c).monitor.program.bind (programOf s) with
    | some p => watchStep c p f s
    | none => s
  | .proving => s

/-- One evaluation of the stop monitor (R132). -/
def evaluate (c : Chan) (s : State) : State :=
  let f := figuresOf s c
  raiseOrder c f (judgeGuard c f (watchTally c f s))

/-! ### A tally (R45 to R50, R54, R57, R60, R61) -/

/-- A tally as the meter takes it (R12). -/
structure Tally where
  seq : Byte
  fwd : Word16
  rev : Word16
  elapsed : Nat
  deriving DecidableEq, Repr

/-- Hand causes that the meter has found; a PROBE among them clears the fresh mark (R52). -/
def meterCauses (c : Chan) (group : List Cause) (s : State) : State :=
  handCauses c group 0
    (if group.contains .probe then modMeter c (fun m => { m with fresh := false }) s else s)

/-- Whether CREEP is handed at a counted tally (R60). -/
def creepReached (s : State) (c : Chan) (fd : Nat) : Bool :=
  creeping (s.ch c).ctx.state && !(s.ch c).meter.creepMark &&
    s.store.settings.creepLimit < within top32 ((s.ch c).meter.creep + fd)

/-- The meter's sums after a counted tally (R48, R54, R57, R60). -/
def addSums (state : CtxState) (fd rd elapsed : Nat) (creepHanded : Bool) (m : Meter) : Meter :=
  { m with
    fwd := within top32 (m.fwd + fd), rev := within top32 (m.rev + rd)
    weighted := m.weighted + ((fd : Int) - rd) * corrected m
    window := pushWindow m.window (windowEntry m fd rd elapsed)
    creep := if creeping state then within top32 (m.creep + fd) else m.creep
    creepMark := m.creepMark || creepHanded }

/-- The pulse report, step 3 of R61: the episode's pulses in FLOWING (R92), the rest timer in HELD (R142). A non-zero
report restarts the quiet timer in SETTLING (R94), which then still runs. -/
def pulseReport (c : Chan) (fd : Nat) (s : State) : State :=
  match (s.ch c).ctx.state with
  | .flowing => modCtx c (fun x => { x with episodePulses := within top32 (x.episodePulses + fd) }) s
  | .held => if fd = 0 then s else modCtx c (fun x => { x with rest := some 0 }) s
  | .idle | .armed | .settling | .paused | .closing | .faulted => s

/-- A tally counted into the ticket: steps 1 to 4 of R61; step 5 is the command's end. -/
def countTally (c : Chan) (fd rd elapsed : Nat) (s : State) : State :=
  let creepHanded := creepReached s c fd
  let state := (s.ch c).ctx.state
  let s := modMeter c (addSums state fd rd elapsed creepHanded) s
  let s := if creepHanded then modCtx c (fun x => { x with flags := { x.flags with creepSeen := true } }) s else s
  let group :=
    (if s.store.metset.reverseLimit < (s.ch c).meter.rev then [Cause.tally] else []) ++
    (if (s.ch c).meter.probe.isNone then [.probe] else []) ++ (if creepHanded then [.creep] else [])
  let s := pulseReport c fd (meterCauses c group s)
  if (s.ch c).ctx.state = .flowing then evaluate c s else s

/-- The totalizer rises by a forward delta, wrapping (R50). -/
def addTotalizer (fd : Word16) (m : Meter) : Meter := { m with totalizer := m.totalizer + fd.setWidth 32 }

/-- A tally within the jump limit (R48). -/
def tallyWithin (c : Chan) (fd rd : Word16) (elapsed : Nat) (s : State) : State :=
  let s := modMeter c (addTotalizer fd) s
  if metering (s.ch c).ctx.state && !(s.ch c).meter.firstTally then countTally c fd.toNat rd.toNat elapsed s
  else
    modMeter c (fun m =>
      { m with unticketed := stopAt top32 (m.unticketed + fd.toNat), firstTally := false }) s

/-- A tally beyond the jump limit: a discontinuity (R47). -/
def tallyJump (c : Chan) (s : State) : State :=
  if metering (s.ch c).ctx.state && !(s.ch c).meter.firstTally then meterCauses c [.tally] s
  else modMeter c (fun m => { m with firstTally := false }) s

/-- The gap counts at a sequence gap (R46). -/
def countGap (inTicket : Bool) (m : Meter) : Meter :=
  { m with gapsSinceStart := stopAt 65535 (m.gapsSinceStart + 1)
           gaps := if inTicket then stopAt 65535 (m.gaps + 1) else m.gaps }

/-- A tally taken by its channel's meter (R45, R46). One that finds no baseline sets the baseline only; in an open ticket the
ticket baseline mark stays set, and the next tally counts as the ticket's first (notes/assumptions/66.md). -/
def takeTally (c : Chan) (t : Tally) (s : State) : State :=
  let known := (s.ch c).meter.baseline
  let s := modMeter c (fun m => { m with baseline := some { fwd := t.fwd, rev := t.rev, seq := t.seq } }) s
  match known, s.power.state with
  | none, _ => s
  | some _, .starting => s
  | some b, _ =>
    let fd := t.fwd - b.fwd
    let rd := t.rev - b.rev
    let inTicket := metering (s.ch c).ctx.state && !(s.ch c).meter.firstTally
    let s := if t.seq = b.seq + 1 then s else modMeter c (countGap inTicket) s
    if s.store.metset.jumpLimit < fd.toNat then tallyJump c s else tallyWithin c fd rd t.elapsed s

/-! ### Probe and contacts (R52, R58, R59) -/

/-- A probe reading taken by its channel's meter (R52). -/
def takeProbe (c : Chan) (temp : Int) (ok : Bool) (s : State) : State :=
  if ok && decide (-400 ≤ temp) && decide (temp ≤ 600) then
    modMeter c (fun m =>
      { m with probe := some temp, fresh := true
               stale := match m.stale with
                 | .stopped => .stopped
                 | .running => .running
                 | .expired => .running }) s
  else
    let s := modMeter c (fun m => { m with fresh := false }) s
    if metering (s.ch c).ctx.state then meterCauses c [.probe] s else s

/-- A vapour contact taken (R58). -/
def takeVapour (c : Chan) (v : Vapour) (s : State) : State :=
  let s := modMeter c (fun m => { m with vapour := v }) s
  if v = .vapour && metering (s.ch c).ctx.state then handCauses c [.air] 0 s else s

/-- A reel contact taken (R59). -/
def takeReel (c : Chan) (r : Reel) (s : State) : State :=
  let s := modMeter c (fun m => { m with reel := r }) s
  if r = .stowed && (s.ch c).ctx.state = .flowing then handCauses c [.reel] 0 s else s

/-! ### The valve gate (R119 to R127) -/

/-- A node's valve answer judged by the gate: stale, confirmed or wrong position (R120). A confirming answer withdraws the
order still queued, be it a resend or the first attempt (notes/assumptions/55.md). -/
def takeValveAnswer (c : Chan) (p : Pos) (number : Byte) (s : State) : State :=
  match (s.ch c).gate.outstanding with
  | none => s
  | some o =>
    if o.number = number then
      if p = (s.ch c).gate.position then
        withdrawOrder c (modGate c (fun g =>
          { g with outstanding := none, timer := false, confirmed := true, missed := false }) s)
      else handCauses c [.valve] 0 s
    else s

/-- The answer to a cab order: the ordered position after the decision, the number echoed (R122). -/
def answerCab (c : Chan) (src seq number : Byte) (reason : Option RefCode) (s : State) : State :=
  sendAnswer
    { chan := c, dst := src, seq := seq, position := (s.ch c).gate.position, number := number, reason := reason } s

/-- A cab CLOSED order: ends a FLOWING episode, and has no effect in any other state (R123). -/
def cabClosed (c : Chan) (s : State) : State :=
  if (s.ch c).ctx.state = .flowing then settle c .driver s else s

/-- The first check that a start fails (R124). -/
def startRefusal (s : State) (c : Chan) : Option RefCode :=
  if (s.ch c).meter.reel != .out then some .reel
  else if (s.ch c).monitor.guard then some .limit
  else if 8 ≤ (s.ch c).ctx.episodes.length then some .episodes
  else none

/-- A RATE watch point of the context's program. -/
def watchIsRate (s : State) (c : Chan) (which : StopProgram → Watch) : Bool :=
  match (s.ch c).monitor.program.bind (programOf s) with
  | some p => (which p).quantity = .rate
  | none => false

/-- The stop monitor at an entry to FLOWING: counts and tally count 0, NOTE seen clear, RATE watch points re-armed (R124,
R130). -/
def armMonitor (c : Chan) (s : State) : State :=
  let rateA := watchIsRate s c StopProgram.watchA
  let rateB := watchIsRate s c StopProgram.watchB
  modMonitor c (fun m =>
    { m with countA := 0, countB := 0, tallies := 0, noteSeen := false
             firedA := m.firedA && !rateA, firedB := m.firedB && !rateB }) s

/-- A new episode opens and the context becomes FLOWING (R57, R92). -/
def startEpisode (c : Chan) (s : State) : State :=
  let figure := liveFigure s c
  let s := modCtx c (fun x =>
    { x with episodes := x.episodes ++ [{ startNet := figure }], episodePulses := 0, state := .flowing }) s
  let s := armMonitor c (modMeter c (fun m => { m with window := [] }) s)
  produceNotice c s

/-- The position an accepted start is ordered to (R124, step 3). -/
def startPosition (s : State) (c : Chan) (requested : Pos) : Pos :=
  match (s.ch c).ctx.mode with
  | .proving => requested
  | .delivery =>
    if liveNet s c < startSlow s c || (s.ch c).gate.limited || requested = .slow then .slow else .full

/-- An accepted start, steps 1 to 4 of R124. -/
def startFlow (c : Chan) (p : Pos) (s : State) : State :=
  let s := startEpisode c (modGate c (fun g => { g with requested := some p }) s)
  issueOrder c (startPosition s c p) s

/-- A cab SLOW or FULL order in FLOWING (R125). -/
def changeFlow (c : Chan) (p : Pos) (s : State) : State :=
  let s := modGate c (fun g => { g with requested := some p }) s
  let g := (s.ch c).gate
  match (s.ch c).ctx.mode with
  | .proving => if g.position = p then s else issueOrder c p s
  | .delivery =>
    if p = .slow then (if g.position = .full then issueOrder c .slow s else s)
    else if g.position = .slow && !g.limited && startSlow s c ≤ liveNet s c then issueOrder c .full s
    else s

/-- A cab SLOW or FULL order decided by the context's state, and answered (R124 to R127). -/
def cabOpen (c : Chan) (p : Pos) (src seq number : Byte) (s : State) : State :=
  match (s.ch c).ctx.state with
  | .armed | .paused =>
    match startRefusal s c with
    | some r => answerCab c src seq number (some r) s
    | none => answerCab c src seq number none (startFlow c p s)
  | .flowing => answerCab c src seq number none (changeFlow c p s)
  | .idle | .settling | .held | .closing | .faulted => answerCab c src seq number (some .state) s

/-- A cab order taken by its channel's gate (R122, R203). The notice of a flow that a CLOSED order ends is placed before the
answer (notes/assumptions/73.md). -/
def takeCabOrder (c : Chan) (p : Pos) (src seq number : Byte) (s : State) : State :=
  if s.power.state = .starting then answerCab c src seq number (some .state) s
  else if s.ctl.lockout != .none then answerCab c src seq number (some .lockout) s
  else if p = .closed then answerCab c src seq number none (cabClosed c s)
  else if s.req.restart.isSome then answerCab c src seq number (some .state) s
  else cabOpen c p src seq number s

end Sys2Proof.Machine
end

