-- ==== Sys2Proof/Machine/Reconstruct.lean ====
section
/-! DEFINITION. STARTING: the reading of the store (R38) and reconstruction from the journal (R83, R84, R164, R182 to
R184). -/
namespace Sys2Proof.Machine

/-! ### The store read (R38) -/

/-- A region that reads as failing its check. -/
def failRegion (g : Regions) : Region → Regions
  | .settings => { g with settings := none }
  | .table .product => { g with products := none }
  | .table .price => { g with prices := none }
  | .table .correction => { g with curves := none }
  | .table .stopProgram => { g with programs := none }
  | .table .nodeMap => { g with nodes := none }
  | .table .station => { g with stations := none }
  | .table .route => { g with route := none }

/-- A table kept where a cross check holds, EMPTY otherwise. -/
def keepIf {α : Type} (p : α → Bool) : Option α → Option α
  | some x => if p x then some x else none
  | none => none

/-- The store's working memory after the read: settings, tables, and the cross checks in their order (R38). -/
def readStore (g : Regions) (t : Store) : Store :=
  let values := g.settings.getD ({}, {})
  let products := keepIf (fun l => l.all fun e => (entriesOf g.curves).any fun k => k.number = e.curve) g.products
  let prices := keepIf (fun l => (entriesOf products).all fun e => l.any fun p => p.code = e.code) g.prices
  let taken := fun (n : NodeEntry) =>
    (entriesOf g.stations).any (fun e => e.address = n.address) || values.1.printer = n.address ||
      values.1.cab = n.address
  let nodes := keepIf (fun l => l.all fun n => !taken n) g.nodes
  { t with
    settings := values.1, metset := values.2, products := products, prices := prices, curves := g.curves
    programs := match g.programs with
      | some l => programsAfter l
      | none => factoryPrograms
    nodes := nodes, stations := g.stations, routeRegion := g.route }

/-- The table store finishes reading its regions (R38); the supply is then classed against the stored levels, and
reconstruction begins unless BROWN is latched (R202). -/
def storeReadDone (failing : List Region) (s : State) : State :=
  if s.power.state = .starting && s.power.phase = .reading then
    let s := modRegions (fun g => failing.foldl failRegion g) s
    let s := classSupply (modStore (readStore s.nv.regions) s)
    modPower (fun p => { p with phase := if p.level = .brown then .heldBrown else .reconstructing }) s
  else s

/-! ### The scan of the array (R182) -/

/-- A WRITTEN slot found by the scan. -/
structure Found where
  seq : Nat
  block : Nat
  slot : Nat
  drained : Bool
  retired : Bool
  record : Record
  deriving DecidableEq, Repr

def slotWritten : Slot → Option (Record × Bool)
  | .written r d => some (r, d)
  | .erased | .unreadable => none

def isErased : Slot → Bool
  | .erased => true
  | .written _ _ | .unreadable => false

def isWritten : Slot → Bool
  | .written _ _ => true
  | .erased | .unreadable => false

/-- The failed slot a RETIRED block's header names. -/
def failedSlot (k : Block) : Option Nat := k.retired.bind Retirement.failedSlot

/-- The WRITTEN slots of one block, but for the failed slot its header names (R182). -/
def foundIn (b : Nat) (k : Block) : List Found :=
  k.slots.zipIdx.filterMap fun x =>
    if k.retired.isSome && failedSlot k = some x.2 then none
    else (slotWritten x.1).map fun w =>
      { seq := w.1.seq, block := b, slot := x.2, drained := w.2, retired := k.retired.isSome, record := w.1 }

/-- The WRITTEN slots of the whole array. -/
def foundAll (array : List Block) : List Found := array.zipIdx.flatMap fun x => foundIn x.2 x.1

/-- A slot of the same block holds a WRITTEN record of a higher sequence after it (R182). -/
def followed (all : List Found) (x : Found) : Bool :=
  all.any fun y => y.block = x.block && x.slot < y.slot && x.seq < y.seq

/-- Of two WRITTEN slots with one sequence, `x` is the one indexed (R182). -/
def preferred (all : List Found) (x y : Found) : Bool :=
  if x.retired != y.retired then !x.retired
  else if !x.retired && followed all x != followed all y then followed all x
  else if !x.retired && (x.slot == 0) != (y.slot == 0) then x.slot = 0
  else y.block < x.block || (y.block = x.block && y.slot < x.slot)

/-- Another slot with the same sequence. -/
def rivals (all : List Found) (x : Found) : List Found :=
  all.filter fun y => y.seq = x.seq && !(y.block = x.block && y.slot = x.slot)

/-- The slot is indexed: it is preferred to each of its rivals (R182). -/
def indexed (all : List Found) (x : Found) : Bool := (rivals all x).all fun y => preferred all x y

/-- Insert in ascending sequence. -/
def insertFound (x : Found) : List Found → List Found
  | [] => [x]
  | y :: rest => if x.seq ≤ y.seq then x :: y :: rest else y :: insertFound x rest

/-- The indexed records in ascending sequence. -/
def indexedRecords (all : List Found) : List Found :=
  (all.filter (indexed all)).foldr insertFound []

/-- A usable block loses one of two copies that both lie in usable blocks (R182). -/
def losesCopy (all : List Found) (b : Nat) : Bool :=
  all.any fun x => x.block = b && !x.retired && !indexed all x && (rivals all x).any fun y => !y.retired

/-- The slots up to the last one that is not erased hold no erased one: the written slots run from slot 0. -/
def noGap (slots : List Slot) : Bool := (slots.dropWhile fun x => !isErased x).all isErased

/-- The first erased slot. -/
def firstErased (slots : List Slot) : Nat := (slots.takeWhile fun x => !isErased x).length

/-- The highest erase count among usable blocks whose headers pass (R182). -/
def highestCount (array : List Block) : Nat :=
  match (array.filter fun k => k.headerOk && k.retired.isNone).map (·.erases) with
  | [] => Config.noEraseCount
  | n :: rest => rest.foldl max n

/-- The block table's row of a block (R182); `newest` is the block that holds the newest record. A block that loses a copy and
also has a gap or a failing header is UNSETTLED (notes/assumptions/53.md). -/
def scanBlock (array : List Block) (all : List Found) (newest : Option Nat) (b : Nat) (k : Block) : BlockInfo :=
  let erases := if k.headerOk then k.erases else highestCount array
  if k.retired.isSome then { state := .retired, erases := erases, writePoint := 0 }
  else if !k.headerOk then { state := .unsettled, erases := erases, writePoint := 0 }
  else if k.slots.all isErased then { state := .erased, erases := erases, writePoint := 0 }
  else if !noGap k.slots then { state := .unsettled, erases := erases, writePoint := 0 }
  else if firstErased k.slots = 16 || losesCopy all b then { state := .filled, erases := erases, writePoint := 0 }
  else if newest = some b then { state := .current, erases := erases, writePoint := firstErased k.slots }
  else { state := .filled, erases := erases, writePoint := 0 }

/-- The last of a list of records in ascending sequence. -/
def newestFound (l : List Found) : Option Found := l.getLast?

/-- The last retired block that the headers give (R181): the one with the highest newest sequence at its retirement, the
later number among equals (notes/assumptions/56.md). -/
def lastRetirement (array : List Block) : Option (Nat × RetireCause × Nat) :=
  array.zipIdx.foldl (fun best x =>
    match x.1.retired with
    | none => best
    | some r =>
      match best with
      | none => some (x.2, r.cause, r.newest)
      | some (b, c, n) => if n ≤ r.newest then some (x.2, r.cause, r.newest) else some (b, c, n)) none

def lostInHeaders (array : List Block) : Nat :=
  (array.map fun k => match k.retired with | some r => r.lost | none => 0).sum

/-! ### UNREADABLE slots (R182, R183) -/

/-- An UNREADABLE slot of a usable block, with the lowest and highest sequence it may hold. -/
structure Doubtful where
  low : Nat
  high : Nat
  block : Nat
  slot : Nat
  deriving DecidableEq, Repr

/-- The sequence of the nearest WRITTEN slot before a slot, 0 when there is none. -/
def writtenBefore (slots : List Slot) (slot : Nat) : Nat :=
  ((slots.take slot).filterMap slotWritten).foldl (fun _ w => w.1.seq) 0

/-- The sequence of the nearest WRITTEN slot after a slot. -/
def writtenAfter (slots : List Slot) (slot : Nat) : Option Nat :=
  (((slots.drop (slot + 1)).filterMap slotWritten).head?).map fun w => w.1.seq

/-- The UNREADABLE slots of usable blocks that may hold some sequence (R182). -/
def doubtfulSlots (array : List Block) (newest : Nat) : List Doubtful :=
  array.zipIdx.flatMap fun x =>
    if x.1.retired.isSome then []
    else x.1.slots.zipIdx.filterMap fun y =>
      if y.1 = .unreadable then
        some { low := writtenBefore x.1.slots y.2 + 1
               high := (match writtenAfter x.1.slots y.2 with | some n => n - 1 | none => newest + 1)
               block := x.2, slot := y.2 }
      else none

/-- The UNREADABLE slots of RETIRED blocks, but for the failed slots their headers name (R182). -/
def retiredUnreadable (array : List Block) : Nat :=
  (array.map fun k =>
    if k.retired.isSome then
      (k.slots.zipIdx.filter fun y => y.1 = .unreadable && failedSlot k != some y.2).length
    else 0).sum

/-- The sequence of the newest record of a kind. -/
def newestOf (l : List Found) (k : RecordKind) : Option Nat :=
  ((l.filter fun x => bodyKind x.record.body = k).getLast?).map (·.seq)

/-- The newest ROUTE OPEN record with no later ROUTE CLOSE record (R83). -/
def openRouteRecord (l : List Found) : Option Found :=
  match (l.filter fun x => bodyKind x.record.body = .routeOpen).getLast? with
  | some x =>
    match newestOf l .routeClose with
    | some c => if x.seq < c then none else some x
    | none => some x
  | none => none

def oldestSeq (l : List Found) : Option Nat := (l.head?).map (·.seq)

/-- The lowest sequence the route rebuild needs (R183). -/
def routeNeed (l : List Found) : Option Nat :=
  match openRouteRecord l with
  | some x => some x.seq
  | none =>
    match newestOf l .routeClose with
    | some c => some (c + 1)
    | none => oldestSeq l

/-- The latest LOAD record of a compartment. -/
def latestLoad (l : List Found) (comp : Nat) : Option (Nat × LoadBody) :=
  ((l.filterMap fun x =>
    match x.record.body with
    | .load b => if b.comp = comp then some (x.seq, b) else none
    | .ticket _ _ | .dropNote _ | .routeOpen _ _ _ _ | .routeClose _ | .audit _ | .proving _ => none)).getLast?

/-- The lowest sequence a compartment's rebuild needs (R183). -/
def compNeed (l : List Found) (comp : Nat) : Option Nat :=
  match latestLoad l comp with
  | some x => some x.1
  | none => oldestSeq l

/-- A slot may hold a sequence at or above an anchor (R183). -/
def mayHold (anchor : Option Nat) (d : Doubtful) : Bool :=
  match anchor with
  | some a => a ≤ d.high && d.low ≤ d.high
  | none => false

/-- The lowest sequence that a slot in doubt at or above an anchor may hold. -/
def lowestDoubt (anchor : Option Nat) (ds : List Doubtful) : Option Nat :=
  match (ds.filter (mayHold anchor)).map (·.low) with
  | [] => none
  | n :: rest => some (rest.foldl min n)

/-- The slots that reconstruction needs (R183). -/
def neededSlots (l : List Found) (newest : Nat) (ds : List Doubtful) : List Doubtful :=
  ds.filter fun d =>
    mayHold (routeNeed l) d || [1, 2, 3, 4].any (fun n => mayHold (compNeed l n) d) || mayHold (some (newest + 1)) d

/-- The needed slot shown on the JOURNAL page: the one whose lowest possible sequence is lowest (R183), among equals the one
in the lowest block, and there the lowest slot (notes/assumptions/57.md). -/
def firstNeeded (ds : List Doubtful) : Option (Nat × Nat × Nat) :=
  ds.foldl (fun best d =>
    match best with
    | none => some (d.low, d.block, d.slot)
    | some (n, b, k) => if d.low < n then some (d.low, d.block, d.slot) else some (n, b, k)) none

/-! ### The rebuild steps: each gives the state it reached and whether it succeeded -/

/-- The part of a list of records below a sequence in doubt. -/
def upTo (doubt : Option Nat) (l : List Found) : List Found :=
  match doubt with
  | some n => l.filter fun x => x.seq < n
  | none => l

/-- A replayed drop note passes the tests of R84. -/
def noteReplays (s : State) (id : Nat) (b : NoteBody) : Bool :=
  b.routeId = id && (if b.op = .add then (dropOf s b.drop).isNone else (dropOf s b.drop).isSome)

/-- A replayed TICKET record passes the tests of R84. -/
def ticketReplays (s : State) (id : Nat) (t : TicketBody) : Bool :=
  t.routeId = id &&
  match dropOf s t.drop with
  | some d => d.tickets.length < 3
  | none => false

/-- Replay the records after the ROUTE OPEN record in sequence order, and the route totals with them (R84, R164). -/
def replayRoute (id : Nat) : List Found → State → State × Bool
  | [], s => (s, true)
  | x :: rest, s =>
    match x.record.body with
    | .dropNote b => if noteReplays s id b then replayRoute id rest (applyNote b s) else (s, false)
    | .ticket n t => if ticketReplays s id t then replayRoute id rest (applyTicket n t s) else (s, false)
    | .load _ | .routeOpen _ _ _ _ | .routeClose _ | .audit _ | .proving _ => replayRoute id rest s

/-- The ROUTE region matches the open route's record (R83). -/
def regionMatches (s : State) (r : Record) : Bool :=
  match s.store.routeRegion, r.body with
  | some (h, _), .routeOpen id count _ _ => h.id = id && h.count = count
  | _, _ => false

/-- Step 1: the route table finds the open route and replays its records (R83, R84). -/
def rebuildRoute (l : List Found) (ds : List Doubtful) (s : State) : State × Bool :=
  let doubt := lowestDoubt (routeNeed l) ds
  match openRouteRecord l, s.store.routeRegion with
  | none, _ => (s, doubt.isNone)
  | some x, some (h, drops) =>
    if regionMatches s x.record then
      let s := takeRoute h drops s
      let replayed := replayRoute h.id (upTo doubt (l.filter fun y => x.seq < y.seq)) s
      if replayed.2 && doubt.isNone then
        (modJournal (fun j => { j with routeAnchor := some x.seq }) replayed.1, true)
      else (replayed.1, false)
    else (s, false)
  | some _, none => (s, false)

/-- Every compartment takes its newest LOAD record; one without stays as at power-on, product 0, base 0 and delivered 0
(R164, step 1). -/
def loadComps (l : List Found) (s : State) : State :=
  [1, 2, 3, 4].foldl (fun s n =>
    match latestLoad l n with
    | some x => modComp n (fun _ => { product := x.2.product, base := x.2.base }) s
    | none => s) s

/-- The compartments take the TICKET records after their loads in sequence order, each of which must name a compartment with
a LOAD record and its product (R164, step 2); one pass for all of them (notes/assumptions/31.md). -/
def replayComps (loads : Nat → Option Nat) : List Found → State → State × Bool
  | [], s => (s, true)
  | x :: rest, s =>
    match x.record.body with
    | .ticket _ t =>
      match loads t.comp with
      | none => (s, false)
      | some n =>
        if x.seq < n then replayComps loads rest s
        else if t.product = (compOf s t.comp).product then
          replayComps loads rest (modComp t.comp (fun k => { k with delivered := within top32 (k.delivered + t.net) }) s)
        else (s, false)
    | .dropNote _ | .load _ | .routeOpen _ _ _ _ | .routeClose _ | .audit _ | .proving _ => replayComps loads rest s

/-- Do a second step where the first succeeded. -/
def andThen (x : State × Bool) (f : State → State × Bool) : State × Bool := if x.2 then f x.1 else x

/-- The route totals of an open route, from its TICKET records (R164, step 4). -/
def rebuildTotals (l : List Found) (s : State) : State :=
  match openRouteRecord l with
  | some x =>
    (l.filter fun y => x.seq < y.seq).foldl (fun s y =>
      match y.record.body with
      | .ticket _ t => addTotal t s
      | .dropNote _ | .load _ | .routeOpen _ _ _ _ | .routeClose _ | .audit _ | .proving _ => s) s
  | none => s

/-- The sequence of a compartment's latest LOAD record. -/
def loadSeq (l : List Found) (comp : Nat) : Option Nat := (latestLoad l comp).map Prod.fst

/-- The lowest sequence in doubt that some compartment's rebuild needs (R183). -/
def compsDoubt (l : List Found) (ds : List Doubtful) : Option Nat :=
  (([1, 2, 3, 4].map fun n => lowestDoubt (compNeed l n) ds).filterMap id).min?

/-- Step 2: the compartments and the route totals (R164). The TICKET records below a sequence in doubt are taken
(notes/assumptions/31.md). -/
def rebuildComps (l : List Found) (ds : List Doubtful) (s : State) : State × Bool :=
  let replayed := replayComps (loadSeq l) (upTo (compsDoubt l ds) l) (loadComps l s)
  if replayed.2 && (compsDoubt l ds).isNone then
    (rebuildTotals l (modJournal (fun j => { j with compAnchors := [1, 2, 3, 4].map (loadSeq l) }) replayed.1), true)
  else (replayed.1, false)

/-- Step 3: totalizers and audit counters from the newest record's header (R64, R184); the newest record must be
readable (R183). -/
def rebuildCounters (l : List Found) (ds : List Doubtful) (newest : Nat) (s : State) : State × Bool :=
  if (lowestDoubt (some (newest + 1)) ds).isSome then (s, false)
  else
    match newestFound l with
    | none => (s, true)
    | some x =>
      let s := modMeter .a (fun m => { m with totalizer := x.record.totA }) s
      let s := modMeter .b (fun m => { m with totalizer := x.record.totB }) s
      (modMet (fun m => { m with cal := x.record.cal, cfg := x.record.cfg }) s, true)

/-- The journal controller's working memory after the scan (R167, R182, R183). -/
def scanJournal (array : List Block) : Journal :=
  let all := foundAll array
  let l := indexedRecords all
  let newest := match newestFound l with | some x => x.seq | none => 0
  let ds := doubtfulSlots array newest
  let needed := neededSlots l newest ds
  { blocks := array.zipIdx.map fun x => scanBlock array all ((newestFound l).map (·.block)) x.2 x.1
    index := l.map fun x =>
      { seq := x.seq, kind := bodyKind x.record.body, block := x.block, slot := x.slot, drained := x.drained }
    newestSeq := newest
    newestTicket := match newestFound l with | some x => x.record.ticketHigh | none => 0
    lastRetired := lastRetirement array
    lostTotal := lostInHeaders array
    unreadable := retiredUnreadable array + (ds.filter fun d => !needed.contains d).length
    firstNeeded := firstNeeded needed }

/-- Steps 1 to 3 of R184 on the scanned array. -/
def rebuild (s : State) : State × Bool :=
  let all := foundAll s.nv.array
  let l := indexedRecords all
  let ds := doubtfulSlots s.nv.array s.journal.newestSeq
  andThen (andThen (rebuildRoute l ds s) (rebuildComps l ds)) (rebuildCounters l ds s.journal.newestSeq)

/-- The slots that read UNREADABLE and the headers that fail their check at this scan; a header that fails its check
shows no retired mark (R182), and both stay so until an erase (notes/assumptions/13.md, 58.md). -/
def decay (badSlots : List (Nat × Nat)) (badHeaders : List Nat) (s : State) : State :=
  let s := badSlots.foldl (fun s x => setSlot x.1 x.2 .unreadable s) s
  badHeaders.foldl (fun s b => modBlock b (fun k => { k with headerOk := false, retired := none }) s) s

/-- Reconstruction and the end of STARTING: the scan, the rebuild or a RECONSTRUCTION lockout, the start-up CLOSED
orders, channel A's first (notes/assumptions/51.md), and ON (R149, R184, R202). -/
def reconstruct (badSlots : List (Nat × Nat)) (badHeaders : List Nat) (s : State) : State :=
  if s.power.state = .starting && s.power.phase = .reconstructing then
    let s := decay badSlots badHeaders s
    let rebuilt := rebuild { s with journal := scanJournal s.nv.array }
    let s := if rebuilt.2 then rebuilt.1
      else modCtl (fun k => { k with lockout := .reconstruction }) rebuilt.1
    modPower (fun p => { p with state := .on }) (issueOrder .b .closed (issueOrder .a .closed s))
  else s

end Sys2Proof.Machine
end

