-- ==== Sys2Proof/Machine/Requests.lean ====
section
/-! DEFINITION. The request unit: how a REQUEST frame is taken, the request list of 11.2, station classes, and the form
in which an owner's checks are written. -/
namespace Sys2Proof.Machine

/-! ### Counters of port C -/

def modCCounters (f : Counters → Counters) (s : State) : State := modLine (fun l => { l with ccnt := f l.ccnt }) s

def modFCounters (f : Counters → Counters) (s : State) : State := modLine (fun l => { l with fcnt := f l.fcnt }) s

/-- A check failure on a port (R2, R5, R9, R20). -/
def countCheck (p : Port) (s : State) : State :=
  match p with
  | .f => modFCounters (fun k => { k with check := stopAt 65535 (k.check + 1) }) s
  | .c => modCCounters (fun k => { k with check := stopAt 65535 (k.check + 1) }) s

/-- A REQUEST from a source without a station entry (R9, R20). -/
def countUnknown (s : State) : State := modCCounters (fun k => { k with unknown := stopAt 65535 (k.unknown + 1) }) s

/-! ### Classes and the request list (R196, 11.2) -/

def clsRank : Cls → Nat
  | .driver => 1
  | .office => 2
  | .metrology => 3

/-- The class of a station's entry in the active station table (R7). -/
def stationClass (s : State) (src : Byte) : Option Cls :=
  ((entriesOf s.store.stations).find? fun e => e.address = src).map StationEntry.cls

/-- The class a station acts in: METROLOGY only while the switch is OPEN (R196). -/
def actingClass (s : State) (k : Cls) : Cls := if k = .metrology && !s.pins.switchOpen then .office else k

/-- The request list: code and class (11.2). -/
def requestList : List (Byte × Cls) :=
  [(0x10, .driver), (0x11, .driver), (0x12, .driver), (0x13, .driver), (0x14, .driver), (0x15, .driver),
   (0x20, .office), (0x21, .office), (0x22, .driver), (0x23, .driver), (0x24, .driver), (0x25, .driver),
   (0x26, .driver), (0x27, .office), (0x28, .driver)] ++
  [(0x30, .office), (0x31, .office), (0x32, .office), (0x33, .office), (0x34, .office),
   (0x40, .office), (0x41, .office), (0x42, .office), (0x48, .office)] ++
  [(0x50, .metrology), (0x51, .metrology), (0x52, .metrology), (0x53, .metrology), (0x54, .metrology),
   (0x60, .driver), (0x61, .office), (0x62, .office)]

/-- The class a request code needs; none for a code that is not in the list. -/
def requiredClass (code : Byte) : Option Cls := (requestList.find? fun e => e.1 = code).map Prod.snd

/-! ### Taking a request (R195) -/

/-- What a request's owning block does: from the station and the class it acts in. -/
abbrev Owner := Byte → Cls → State → State

/-- A request's record while it is in progress (R195, step 2). -/
def beginRequest (src code seq : Byte) (acting : Cls) (s : State) : State :=
  modReq (fun r => { r with inProgress := r.inProgress ++ [{ station := src, code := code, seq := seq, cls := acting }] }) s

/-- Steps 3 to 6 of R195, on a request that has been taken; an accepted RESTART refuses every request (R203). -/
def judgeRequest (src code : Byte) (acting : Cls) (owner : Owner) (s : State) : State :=
  if s.power.state = .starting && code != 0x60 then refuse src .busy s
  else if s.req.restart.isSome then refuse src .busy s
  else match requiredClass code with
    | none => refuse src .argument s
    | some need => if clsRank acting < clsRank need then refuse src .cls s else owner src acting s

/-- A REQUEST frame handed over by the line interface: dropped as from an unknown station (R9), or steps 1 to 6 of
R195. -/
def serve (src seq code : Byte) (owner : Owner) (s : State) : State :=
  match stationClass s src with
  | none => countUnknown s
  | some k =>
    if s.req.inProgress.any fun p => p.station = src then busyReply src seq code s
    else judgeRequest src code (actingClass s k) owner (beginRequest src code seq (actingClass s k) s)

/-- A frame addressed to 0 on port C: nothing in OFF and SHUTDOWN, a check failure when its source fails R2, and in
STANDBY it wakes the part before it is handled (R22, R200). -/
def frameToZero (src : Byte) (handle : State → State) (s : State) : State :=
  match s.power.state with
  | .off | .shutdown => s
  | .standby => if addressOk src then handle (wake s) else s
  | .starting | .on => if addressOk src then handle s else countCheck .c s

/-- A REQUEST frame of a code arrives (R9, R195). -/
def takeRequest (src seq code : Byte) (owner : Owner) (s : State) : State :=
  frameToZero src (serve src seq code owner) s

/-! ### An owner's checks, in the order its rule gives -/

/-- The refusal of the first check that fails: each check is paired with its refusal. -/
def firstRefusal : List (Bool × RefCode) → Option RefCode
  | [] => none
  | (holds, code) :: rest => if holds then firstRefusal rest else some code

/-- Refuse with the first check that fails, or act. -/
def checked (checks : List (Bool × RefCode)) (station : Byte) (act : State → State) (s : State) : State :=
  match firstRefusal checks with
  | some code => refuse station code s
  | none => act s

/-- The part is not in lockout (R149). -/
def notLocked (s : State) : Bool := s.ctl.lockout = .none

/-- A condition asked only where another holds. -/
def onlyIf (asked holds : Bool) : Bool := !asked || holds

/-- A channel argument other than A or B is refused ARGUMENT. -/
def withChannel (chan : Option Chan) (station : Byte) (act : Chan → State → State) (s : State) : State :=
  match chan with
  | some c => act c s
  | none => refuse station .argument s

/-- Both ticket contexts are IDLE. -/
def bothIdle (s : State) : Bool := s.chA.ctx.state = .idle && s.chB.ctx.state = .idle

/-- The route id, or 0 when the route state is NONE (R65, R163, R197). -/
def routeIdOf (s : State) : Nat :=
  match s.route.state, s.route.header with
  | .none, _ => 0
  | _, some h => h.id
  | _, none => 0

end Sys2Proof.Machine
end

