-- ==== Sys2Proof/Machine/TicketRequests.lean ====
section
/-! DEFINITION. The ticket controller's requests: OPEN TICKET, CLOSE TICKET, CLEAR HOLD, RETRY CLOSE, REPRINT, READ
PENDING. -/
namespace Sys2Proof.Machine

/-! ### OPEN TICKET (R88 to R91, R155) -/

/-- A product's overrun allowance in litres (R24). -/
def overrunOf (s : State) (product : Nat) : Nat :=
  match productOf s product with
  | some p => p.overrun
  | none => 0

/-- The authorised volume of a ticket on a drop and a compartment (R89). -/
def openAuthorised (s : State) (d : Drop) (comp : Nat) : Nat :=
  authorisedVolume s d.plan d.delivered d.amount (available (compOf s comp)) (overrunOf s d.plan.product)

/-- The claim's conditions, checks 5 to 8 of OPEN TICKET (R72). In route CLOSING too a drop that is not in the table is
NOT-FOUND, and one that is neither PLANNED nor PARTIAL is STATE, ahead of IN-USE (notes/assumptions/67.md). -/
def claimChecks (s : State) (d : Option Drop) : List (Bool × RefCode) :=
  [(s.route.state != .none && d.isSome, .notFound),
   (d.any fun x => x.state = .planned || x.state = .partly, .state),
   (d.any (fun x => x.claimant.isNone && !x.noteMark) && s.route.state != .closing, .inUse),
   (d.any fun x => x.tickets.length < 3, .limit)]

/-- A drop's product has an entry and a price list, and its program is not empty (R88, check 9). -/
def dropServed (s : State) (d : Drop) : Bool :=
  (productOf s d.plan.product).isSome && (entriesOf s.store.prices).any (fun e => e.code = d.plan.product) &&
  (programOf s d.plan.program).isSome

/-- The checks of OPEN TICKET in their order (R88). Check 3 sees no other open of the channel: an open is one step
(notes/assumptions/22.md), and one that is refused ends when its result is given, also where its reply still waits for a
place (notes/assumptions/69.md). -/
def openTicketChecks (s : State) (c : Chan) (drop comp : Nat) : List (Bool × RefCode) :=
  let d := dropOf s drop
  [(!barred s c, .inUse),
   (between 1 9999 drop && between 1 4 comp, .argument),
   (notLocked s, .lockout),
   (!s.pins.switchOpen, .metrology),
   ((s.ch c).ctx.state = .idle && (s.ch c).heldPrint.isNone, .state),
   (s.store.products.isSome && s.store.prices.isSome && complete s c, .table)] ++
  claimChecks s d ++
  [(d.any (dropServed s), .table),
   (d.any fun x => (compOf s comp).product = x.plan.product, .argument),
   (accepts s, .journalFull),
   (d.any fun x => 100 ≤ openAuthorised s x comp, .limit)]

/-- The context of an accepted OPEN TICKET (R91, steps 1 and 2). -/
def openTicketCtx (s : State) (d : Drop) (comp authorised reservation : Nat) (x : Ctx) : Ctx :=
  { x with
    mode := .delivery, drop := some { plan := d.plan, routeId := routeIdOf s }, comp := some comp
    product := some d.plan.product, authorised := authorised, reservation := reservation
    baseVolume := d.delivered, baseAmount := d.amount
    openTime := s.power.clock, openUnset := s.power.unset
    flags := { x.flags with clockUnset := s.power.unset } }

/-- An OPEN TICKET whose checks passed: claim, reservation, context, ARMED, reply (R72, R90, R91). -/
def openTicketNow (c : Chan) (d : Drop) (comp : Nat) (station : Byte) (s : State) : State :=
  let authorised := openAuthorised s d comp
  let reservation := authorised + overrunOf s d.plan.product * 100
  let opened := modCtx c (openTicketCtx s d comp authorised reservation)
    (modComp comp (fun k => { k with reserved := k.reserved + reservation })
      (modDrop d.plan.number (fun x => { x with claimant := some c }) s))
  accept station (.opened authorised reservation d.plan.program) (leaveIdle c opened)

def ownOpenTicket (drop : Nat) (chan : Option Chan) (comp : Nat) : Owner := fun station _ s =>
  withChannel chan station (fun c s =>
    checked (openTicketChecks s c drop comp) station (fun s =>
      match dropOf s drop with
      | some d => openTicketNow c d comp station s
      | none => s) s) s

def execOpenTicket (src seq : Byte) (drop : Nat) (chan : Option Chan) (comp : Nat) (s : State) :
    Host.Outcome State Fault Refusal :=
  event (takeRequest src seq 0x10 (ownOpenTicket drop chan comp)) s

/-! ### CLOSE TICKET (R98, R99) -/

/-- What CLOSE TICKET does to a channel, by the state of its context (R98). A cancelled ticket's notice is placed before the
reply (notes/assumptions/73.md). -/
def closeByState (c : Chan) (station : Byte) (s : State) : State :=
  match (s.ch c).ctx.state with
  | .armed =>
    if counted (s.ch c).meter then beginClose c .request (some station) s
    else accept station (.ticket 0) (cancel c s)
  | .paused | .held => beginClose c .request (some station) s
  | .flowing | .settling | .idle | .faulted => refuse station .state s
  | .closing => refuse station .busy s

/-- A context in mode PROVING answers only to a station acting in METROLOGY class (R98, R143, R148).
notes/assumptions/44.md -/
def provingClass (s : State) (c : Chan) (acting : Cls) : Bool :=
  onlyIf ((s.ch c).ctx.mode = .proving) (acting = .metrology)

def ownCloseTicket (chan : Option Chan) : Owner := fun station acting s =>
  withChannel chan station (fun c s =>
    checked [(notLocked s, .lockout), (provingClass s c acting, .cls)] station (closeByState c station) s) s

def execCloseTicket (src seq : Byte) (chan : Option Chan) (s : State) : Host.Outcome State Fault Refusal :=
  event (takeRequest src seq 0x11 (ownCloseTicket chan)) s

/-! ### CLEAR HOLD (R143, R144) -/

/-- The rest timer has run for the settle quiet interval in force (R144). -/
def restedLong (s : State) (c : Chan) : Bool :=
  match (s.ch c).ctx.rest with
  | some n => s.store.settings.settleQuiet ≤ n
  | none => false

/-- A cause's condition is gone at this moment (R144). -/
def conditionGone (s : State) (c : Chan) : Cause → Bool
  | .supply => s.power.level = .normal
  | .air => (s.ch c).meter.vapour != .vapour
  | .valve => (s.ch c).gate.confirmed
  | .creep => restedLong s c
  | .silent => (s.ch c).silence.all fun n => !n.lapsed
  | .probe => (s.ch c).meter.fresh
  | .reel => (s.ch c).meter.reel = .out
  | .program => true
  | .tally | .metrology => false

/-- The causes that remain after CLEAR HOLD. -/
def causesLeft (s : State) (c : Chan) : List Cause := (s.ch c).ctx.causes.filter fun x => !conditionGone s c x

/-- A context leaves HELD for PAUSED (R143). -/
def leaveHeld (c : Chan) (s : State) : State :=
  resetCreep c (modCtx c (fun x => { x with causes := [], state := .paused, rest := none, primary := none }) s)

/-- CLEAR HOLD past its checks 1 to 3. -/
def clearHoldNow (c : Chan) (station : Byte) (s : State) : State :=
  if (s.ch c).ctx.causes.any nonResumable then reply station (some .state) (.causes (s.ch c).ctx.causes) s
  else
    let left := causesLeft s c
    if left.isEmpty then produceNotice c (accept station .nothing (leaveHeld c s))
    else reply station (some .hold) (.causes left) (modCtx c (fun x => { x with causes := left }) s)

def ownClearHold (chan : Option Chan) : Owner := fun station acting s =>
  withChannel chan station (fun c s =>
    checked [(notLocked s, .lockout), (provingClass s c acting, .cls), ((s.ch c).ctx.state = .held, .state)] station
      (clearHoldNow c station) s) s

def execClearHold (src seq : Byte) (chan : Option Chan) (s : State) : Host.Outcome State Fault Refusal :=
  event (takeRequest src seq 0x12 (ownClearHold chan)) s

/-! ### RETRY CLOSE (R148) -/

/-- RETRY CLOSE past its checks: the retry mark, the requester, the append. -/
def retryCloseNow (c : Chan) (station : Byte) (s : State) : State :=
  handAppend (.close c) (modCtx c (fun x => { x with retryMark := true, requester := some station }) s)

def ownRetryClose (chan : Option Chan) : Owner := fun station acting s =>
  withChannel chan station (fun c s =>
    checked
      [(notLocked s, .lockout), ((s.ch c).ctx.state = .faulted, .state), (provingClass s c acting, .cls),
       (!(s.ch c).ctx.retryMark, .busy)] station (retryCloseNow c station) s) s

def execRetryClose (src seq : Byte) (chan : Option Chan) (s : State) : Host.Outcome State Fault Refusal :=
  event (takeRequest src seq 0x13 (ownRetryClose chan)) s

/-! ### REPRINT (R111) -/

/-- Ask the journal controller for a slot read (R178, R111). -/
def askRead (station : Byte) (seq : Nat) (reprint : Bool) (s : State) : State :=
  modJournal (fun j => { j with reads := j.reads ++ [{ station := station, seq := seq, reprint := reprint }] }) s

/-- The retained record of a sequence is a TICKET record. -/
def indexedTicket (s : State) (sequence : Nat) : Bool := (indexOf s sequence).any fun e => e.kind = .ticket

def ownReprint (sequence : Nat) : Owner := fun station _ s =>
  checked
    [(notLocked s, .lockout), (s.store.settings.printer != 0, .state), (indexedTicket s sequence, .notFound)] station
    (askRead station sequence true) s

def execReprint (src seq : Byte) (sequence : Nat) (s : State) : Host.Outcome State Fault Refusal :=
  event (takeRequest src seq 0x14 (ownReprint sequence)) s

/-! ### READ PENDING (R112) -/

/-- The record of a pending one, apart from the judgement kept beside it (R112, R192). -/
def pendingRecord : Built → PendingRecord
  | .ticket t => .ticket t
  | .proving p _ => .proving p

/-- The pending record that READ PENDING returns. -/
def pendingShown (s : State) (c : Chan) : Option PendingRecord :=
  match (s.ch c).ctx.state with
  | .closing | .faulted => (s.ch c).ctx.pending.map pendingRecord
  | .idle | .armed | .flowing | .settling | .paused | .held => none

def ownReadPending (chan : Option Chan) : Owner := fun station _ s =>
  withChannel chan station (fun c s =>
    match pendingShown s c with
    | some b => accept station (.pendingRecord (s.ch c).ctx.state (s.ch c).ctx.origin b) s
    | none => refuse station .notFound s) s

def execReadPending (src seq : Byte) (chan : Option Chan) (s : State) : Host.Outcome State Fault Refusal :=
  event (takeRequest src seq 0x15 (ownReadPending chan)) s

end Sys2Proof.Machine
end

