-- ==== Sys2Proof/Machine/RouteRequests.lean ====
section
/-! DEFINITION. The requests of the route table and the compartment table: OPEN ROUTE, CLOSE ROUTE, NEXT DROP, READ DROP,
the drop notes, READ TOTALS, LOAD COMPARTMENT. -/
namespace Sys2Proof.Machine

/-- What the staging area holds while it is not EMPTY (R28). -/
def staged (s : State) : Option Load :=
  match s.store.staging with
  | .empty => none
  | .filling l => some l
  | .activating l => some l

/-- The staged table of a load. -/
def stagedTable (l : Load) : Option TableData := tableOf l.kind l.entries

/-- Put a load in ACTIVATING. -/
def setActivating (l : Load) (s : State) : State := modStore (fun t => { t with staging := .activating l }) s

/-- Start the write of a staged table's region (R35, R71). -/
def startTableWrite (station : Byte) (s : State) : State :=
  modStore (fun t => { t with tableWrite := some { station := station, audit := none } }) s

/-! ### OPEN ROUTE (R69, R70) -/

def openRouteChecks (s : State) (station : Byte) : List (Bool × RefCode) :=
  let l := staged s
  [(notLocked s, .lockout),
   (s.route.state = .none, .state),
   (l.isSome, .state),
   (l.any fun x => x.holder = station, .inUse),
   (l.any fun x => x.kind = .route, .state),
   (l.any fun x => x.entries.length = x.declared, .table),
   (l.any (fun x => (stagedTable x).any (tableChecks s)), .table),
   (accepts s, .journalFull)]

def ownOpenRoute : Owner := fun station _ s =>
  checked (openRouteChecks s station) station (fun s =>
    match staged s with
    | some l => startTableWrite station (setActivating l s)
    | none => s) s

def execOpenRoute (src seq : Byte) (s : State) : Host.Outcome State Fault Refusal :=
  event (takeRequest src seq 0x20 ownOpenRoute) s

/-! ### CLOSE ROUTE (R81, R82) -/

/-- The number of drops in a state. -/
def countState (ds : List Drop) (x : DropState) : Nat := (ds.filter fun d => d.state = x).length

/-- The number of drops in each of the five states (R82). -/
def stateCounts (ds : List Drop) : StateCounts :=
  { planned := countState ds .planned, partly := countState ds .partly, delivered := countState ds .delivered
    skipped := countState ds .skipped, cancelled := countState ds .cancelled }

/-- The ROUTE CLOSE record as it is built (R82). -/
def routeCloseBody (s : State) : RouteCloseBody :=
  { routeId := routeIdOf s, totals := s.comps.totals, counts := stateCounts s.route.drops }

def closeRouteChecks (s : State) : List (Bool × RefCode) :=
  [(notLocked s, .lockout), (s.route.state = .opened, .state), (bothIdle s, .state),
   (!(s.route.drops.any fun d => d.noteMark) && (additionsInFlight s).isEmpty, .busy), (accepts s, .journalFull)]

def ownCloseRoute : Owner := fun station _ s =>
  checked (closeRouteChecks s) station (fun s =>
    handAppend (.manage station (.routeClose (routeCloseBody s))) (modRoute (fun r => { r with state := .closing }) s)) s

def execCloseRoute (src seq : Byte) (s : State) : Host.Outcome State Fault Refusal :=
  event (takeRequest src seq 0x21 ownCloseRoute) s

/-! ### NEXT DROP and READ DROP (R79, R80) -/

/-- The drops that can be found: none while the route state is NONE. -/
def dropsShown (s : State) : List Drop :=
  match s.route.state with
  | .none => []
  | .opened | .closing => s.route.drops

/-- Reply with a drop entry, or NOT-FOUND. -/
def answerDrop (d : Option Drop) (station : Byte) (s : State) : State :=
  match d with
  | some x => accept station (.dropEntry x) s
  | none => refuse station .notFound s

/-- What NEXT DROP looks for (R79). -/
def nextDropOk (d : Drop) : Bool := (d.state = .planned || d.state = .partly) && d.claimant.isNone && !d.noteMark

def ownNextDrop : Owner := fun station _ s => answerDrop ((dropsShown s).find? nextDropOk) station s

def execNextDrop (src seq : Byte) (s : State) : Host.Outcome State Fault Refusal :=
  event (takeRequest src seq 0x22 ownNextDrop) s

def ownReadDrop (drop : Nat) : Owner := fun station _ s =>
  answerDrop ((dropsShown s).find? fun d => d.plan.number = drop) station s

def execReadDrop (src seq : Byte) (drop : Nat) (s : State) : Host.Outcome State Fault Refusal :=
  event (takeRequest src seq 0x23 (ownReadDrop drop)) s

/-! ### Drop notes (R74 to R78) -/

/-- The checks of SKIP, RESTORE and CANCEL DROP; `fits` is their check 3 (R75, R76, R78). -/
def noteChecks (s : State) (drop : Nat) (fits : Drop → Bool) : List (Bool × RefCode) :=
  let d := dropOf s drop
  [(notLocked s, .lockout),
   (s.route.state != .none && d.isSome, .notFound),
   (d.any fits, .state),
   (d.any (fun x => x.claimant.isNone && !x.noteMark) && s.route.state = .opened, .inUse),
   (accepts s, .journalFull)]

/-- A note that has passed its checks: the note mark and the DROP NOTE record (R74). -/
def handNote (op : NoteOp) (drop : Nat) (station : Byte) (s : State) : State :=
  handAppend (.manage station (.dropNote { op := op, drop := drop, routeId := routeIdOf s, plan := none }))
    (modDrop drop (fun d => { d with noteMark := true }) s)

def openForWork (d : Drop) : Bool := d.state = .planned || d.state = .partly

def neverServed (d : Drop) : Bool := d.state = .planned && d.tickets.isEmpty

def ownSkip (drop : Nat) : Owner := fun station _ s =>
  checked (noteChecks s drop openForWork) station (handNote .skip drop station) s

def execSkip (src seq : Byte) (drop : Nat) (s : State) : Host.Outcome State Fault Refusal :=
  event (takeRequest src seq 0x24 (ownSkip drop)) s

def ownRestore (drop : Nat) : Owner := fun station _ s =>
  checked (noteChecks s drop fun d => d.state = .skipped) station (handNote .restore drop station) s

def execRestore (src seq : Byte) (drop : Nat) (s : State) : Host.Outcome State Fault Refusal :=
  event (takeRequest src seq 0x25 (ownRestore drop)) s

/-- The entry that ADD DROP's arguments give, none where they give no drop kind; the SHORT form takes the route's unplanned
credit ceiling (R77). -/
def addedDrop (s : State) : AddForm → Option StagedDrop
  | .short number account product => some
    { number := number, account := account, product := product, kind := .fill, preset := none, ullage := none
      ceiling := s.route.header.bind RouteHeader.ceiling, adjustment := some 0, program := some 1 }
  | .full d => some d
  | .illCoded => none

/-- The FULL form. -/
def isFull : AddForm → Bool
  | .short _ _ _ => false
  | .full _ | .illCoded => true

/-- The route allows unplanned drops (R65). -/
def unplannedAllowed (s : State) : Bool := s.route.header.any fun h => h.unplanned

/-- The checks of ADD DROP in their order (R77). They read the tables in force; an activation whose write is under way is not
seen, and may then remove the product or the program (notes/assumptions/68.md). -/
def addDropChecks (s : State) (form : AddForm) (acting : Cls) : List (Bool × RefCode) :=
  let d := addedDrop s form
  [(notLocked s, .lockout),
   (s.route.state = .opened, .state),
   (onlyIf (isFull form) (acting != .driver), .cls),
   (onlyIf (acting = .driver) (unplannedAllowed s), .cls),
   (d.any (dropOk s), .argument),
   (s.route.drops.length + (additionsInFlight s).length < 96, .limit),
   (d.any fun x => (dropOf s x.number).isNone && !(additionsInFlight s).any fun p => p.number = x.number, .argument),
   (accepts s, .journalFull)]

def ownAddDrop (form : AddForm) : Owner := fun station acting s =>
  checked (addDropChecks s form acting) station (fun s =>
    match (addedDrop s form).map planOf with
    | some p =>
      handAppend (.manage station
        (.dropNote { op := .add, drop := p.number, routeId := routeIdOf s, plan := some p })) s
    | none => s) s

def execAddDrop (src seq : Byte) (form : AddForm) (s : State) : Host.Outcome State Fault Refusal :=
  event (takeRequest src seq 0x26 (ownAddDrop form)) s

def ownCancelDrop (drop : Nat) : Owner := fun station _ s =>
  checked (noteChecks s drop neverServed) station (handNote .cancel drop station) s

def execCancelDrop (src seq : Byte) (drop : Nat) (s : State) : Host.Outcome State Fault Refusal :=
  event (takeRequest src seq 0x27 (ownCancelDrop drop)) s

/-! ### READ TOTALS (R163) -/

def ownReadTotals : Owner := fun station _ s =>
  accept station (.totals (routeIdOf s) s.comps.totals (s.comps.list.map compView)) s

def execReadTotals (src seq : Byte) (s : State) : Host.Outcome State Fault Refusal :=
  event (takeRequest src seq 0x28 ownReadTotals) s

/-! ### LOAD COMPARTMENT (R159, R160) -/

/-- The LOAD record of a load of `litres` litres of a product into a compartment (R160). -/
def loadBody (k : Comp) (comp product litres : Nat) : LoadBody :=
  let left := remaining k
  { comp := comp, product := product, prevProduct := k.product, prevBase := k.base, prevDelivered := k.delivered
    added := litres * 100
    writtenOff := if k.product != 0 && product != k.product then left else 0
    base := if k.product = product then left + litres * 100 else litres * 100 }

/-- The checks of LOAD COMPARTMENT in their order (R159), over the tables in force (notes/assumptions/68.md). -/
def loadChecks (s : State) (comp product litres : Nat) : List (Bool × RefCode) :=
  let k := compOf s comp
  [(notLocked s, .lockout),
   (between 1 4 comp && between 1 8 product && (productOf s product).isSome && between 1 20000 litres, .argument),
   (!k.loadMark && k.reserved = 0, .inUse),
   (onlyIf (product != k.product && k.product != 0) (remaining k ≤ s.store.settings.heel * 100), .argument),
   ((loadBody k comp product litres).base ≤ 2000000, .argument),
   (accepts s, .journalFull)]

def ownLoadCompartment (comp product litres : Nat) : Owner := fun station _ s =>
  checked (loadChecks s comp product litres) station (fun s =>
    handAppend (.manage station (.load (loadBody (compOf s comp) comp product litres)))
      (modComp comp (fun k => { k with loadMark := true }) s)) s

def execLoadCompartment (src seq : Byte) (comp product litres : Nat) (s : State) :
    Host.Outcome State Fault Refusal :=
  event (takeRequest src seq 0x48 (ownLoadCompartment comp product litres)) s

end Sys2Proof.Machine
end

