-- ==== Sys2Proof/Machine/TableRequests.lean ====
section
/-! DEFINITION. The table store's requests: BEGIN LOAD, LOAD PIECE, ACTIVATE, ABANDON, WRITE SETTING. -/
namespace Sys2Proof.Machine

/-! ### BEGIN LOAD (R29) -/

/-- The staging area is EMPTY, or FILLING with this station as holder (R29, check 4). -/
def stagingFree (s : State) (station : Byte) : Bool :=
  match s.store.staging with
  | .empty => true
  | .filling l => l.holder = station
  | .activating _ => false

def beginLoadChecks (s : State) (station : Byte) (acting : Cls) (kind : Option TableKind) (count : Nat) :
    List (Bool × RefCode) :=
  [(notLocked s, .lockout),
   (onlyIf (kind = some .correction) (acting = .metrology), .cls),
   (kind.any fun k => countInRange k count, .argument),
   (stagingFree s station, .inUse)]

def ownBeginLoad (kind : Option TableKind) (count : Nat) : Owner := fun station acting s =>
  checked (beginLoadChecks s station acting kind count) station (fun s =>
    match kind with
    | some k =>
      accept station .nothing
        (modStore (fun t =>
          { t with staging := .filling { holder := station, kind := k, declared := count, entries := [] } }) s)
    | none => s) s

def execBeginLoad (src seq : Byte) (kind : Option TableKind) (count : Nat) (s : State) :
    Host.Outcome State Fault Refusal :=
  event (takeRequest src seq 0x30 (ownBeginLoad kind count)) s

/-! ### LOAD PIECE (R30) -/

def loadPieceChecks (s : State) (station : Byte) : List (Bool × RefCode) :=
  [(notLocked s, .lockout), ((staged s).isSome, .state), ((staged s).any fun l => l.holder = station, .inUse)]

/-- Checks 4 to 6 of LOAD PIECE, whose refusal carries the received count (R30). -/
def pieceFits (l : Load) (first : Nat) (entries : List Entry) (ragged : Bool) : Bool :=
  !ragged && !entries.isEmpty && entries.all (fun e => entryKind e = l.kind) && first = l.entries.length &&
  l.entries.length + entries.length ≤ l.declared

/-- The staging area with entries appended. -/
def appendEntries (entries : List Entry) : Staging → Staging
  | .empty => .empty
  | .filling l => .filling { l with entries := l.entries ++ entries }
  | .activating l => .activating { l with entries := l.entries ++ entries }

/-- LOAD PIECE past its checks 1 to 3. -/
def loadPieceNow (l : Load) (first : Nat) (entries : List Entry) (ragged : Bool) (station : Byte) (s : State) : State :=
  if pieceFits l first entries ragged then
    accept station (.received (l.entries.length + entries.length))
      (modStore (fun t => { t with staging := appendEntries entries t.staging }) s)
  else reply station (some .argument) (.received l.entries.length) s

def ownLoadPiece (first : Nat) (entries : List Entry) (ragged : Bool) : Owner := fun station _ s =>
  checked (loadPieceChecks s station) station (fun s =>
    match staged s with
    | some l => loadPieceNow l first entries ragged station s
    | none => s) s

def execLoadPiece (src seq : Byte) (first : Nat) (entries : List Entry) (ragged : Bool) (s : State) :
    Host.Outcome State Fault Refusal :=
  event (takeRequest src seq 0x31 (ownLoadPiece first entries ragged)) s

/-! ### ACTIVATE (R32, R35) -/

def activateChecks (s : State) (station : Byte) (acting : Cls) : List (Bool × RefCode) :=
  let l := staged s
  let t := l.bind stagedTable
  let metrology := t.any (metrologyChange s)
  [(notLocked s, .lockout),
   (l.isSome, .state),
   (l.any fun x => x.holder = station, .inUse),
   (l.any fun x => x.kind != .route, .state),
   (l.any fun x => x.entries.length = x.declared, .table),
   (t.any (tableChecks s), .table),
   (onlyIf metrology (acting = .metrology), .cls),
   (t.any (useCondition s), .inUse),
   (onlyIf metrology (accepts s), .journalFull)]

/-- The AUDIT record of a metrology activation (R189). -/
def tableAudit (s : State) (l : Load) (station : Byte) (change : Change) (counter : AuditCounter) : AuditBody :=
  { change := change, counter := counter, station := station, old := auditTable (activeEntries s l.kind)
    new := auditTable l.entries, provingSeq := 0, observed := 0, committed := 0 }

/-- An activation that has passed its checks begins with its AUDIT record or with the region's write (R35). -/
def activateNow (l : Load) (metrology : Bool) (station : Byte) (s : State) : State :=
  match metrology, tableChange l.kind with
  | true, some k => handAppend (.manage station (.audit (tableAudit s l station k.1 k.2))) (setActivating l s)
  | _, _ => startTableWrite station (setActivating l s)

def ownActivate : Owner := fun station acting s =>
  checked (activateChecks s station acting) station (fun s =>
    match staged s with
    | some l => activateNow l ((stagedTable l).any (metrologyChange s)) station s
    | none => s) s

def execActivate (src seq : Byte) (s : State) : Host.Outcome State Fault Refusal :=
  event (takeRequest src seq 0x32 ownActivate) s

/-! ### ABANDON (R31) -/

/-- The staging area is ACTIVATING. -/
def isActivating (s : State) : Bool :=
  match s.store.staging with
  | .activating _ => true
  | .empty | .filling _ => false

def ownAbandon : Owner := fun station _ s =>
  checked [((staged s).isSome, .state), (!isActivating s, .busy)] station (fun s =>
    accept station .nothing (modStore (fun t => { t with staging := .empty }) s)) s

def execAbandon (src seq : Byte) (s : State) : Host.Outcome State Fault Refusal :=
  event (takeRequest src seq 0x33 ownAbandon) s

/-! ### WRITE SETTING (R39) -/

/-- Check 4 of WRITE SETTING. -/
def settingAddressOk (s : State) (k : Setting) (v : Int) : Bool :=
  match k with
  | .printer | .cab => !addressOfNode s (BitVec.ofNat 8 v.toNat)
  | .settleQuiet | .settleLimit | .creepLimit | .standbyDelay | .supplySystem | .lowLevel | .heelAllowance
  | .alertMask | .rawEcho => true

def writeSettingChecks (s : State) (k : Option Setting) (v : Int) : List (Bool × RefCode) :=
  [(notLocked s, .lockout), (k.isSome, .argument), (k.any fun x => settingInRange x v, .argument),
   (k.any fun x => settingAddressOk s x v, .argument)]

def ownWriteSetting (k : Option Setting) (v : Int) : Owner := fun station _ s =>
  checked (writeSettingChecks s k v) station (fun s =>
    match k with
    | some x =>
      modStore (fun t =>
        { t with settingsWrites := t.settingsWrites ++
                   [{ station := station, change := .office x v, audit := none, factor := false }] }) s
    | none => s) s

def execWriteSetting (src seq : Byte) (k : Option Setting) (v : Int) (s : State) :
    Host.Outcome State Fault Refusal :=
  event (takeRequest src seq 0x34 (ownWriteSetting k v)) s

end Sys2Proof.Machine
end

