-- ==== Sys2Proof/Machine/JournalRequests.lean ====
section
/-! DEFINITION. The journal controller's requests: READ RECORD, RELEASE THROUGH, READ HEALTH. -/
namespace Sys2Proof.Machine

/-! ### READ RECORD (R178) -/

def ownReadRecord (sequence : Nat) : Owner := fun station _ s =>
  checked [((indexOf s sequence).isSome, .notFound)] station (askRead station sequence false) s

def execReadRecord (src seq : Byte) (sequence : Nat) (s : State) : Host.Outcome State Fault Refusal :=
  event (takeRequest src seq 0x40 (ownReadRecord sequence)) s

/-! ### RELEASE THROUGH (R179) -/

def releaseChecks (s : State) (station : Byte) (target : Nat) : List (Bool × RefCode) :=
  [(notLocked s, .lockout),
   (s.journal.release.isNone && !otherInProgress s station 0x41, .inUse),
   (drainCursor s.journal ≤ target + 1 && target ≤ s.journal.newestSeq, .argument)]

def ownReleaseThrough (target : Nat) : Owner := fun station _ s =>
  checked (releaseChecks s station target) station (fun s =>
    releaseNext (modJournal (fun j =>
      { j with release := some { station := station, target := target, marked := 0, memory := 0 } }) s)) s

def execReleaseThrough (src seq : Byte) (target : Nat) (s : State) : Host.Outcome State Fault Refusal :=
  event (takeRequest src seq 0x41 (ownReleaseThrough target)) s

/-! ### READ HEALTH (R181) -/

/-- The rows of usable blocks (R166). -/
def usableBlocks (s : State) : List BlockInfo := s.journal.blocks.filter fun b => b.state != .retired

def journalPage (s : State) : JournalPage :=
  { free := freeSlots s, undrained := (undrained s.journal).length, newest := s.journal.newestSeq
    oldest := match s.journal.index with | e :: _ => e.seq | [] => 0
    cursor := drainCursor s.journal, usable := (usableBlocks s).length
    current := (currentBlock s).map Prod.fst, unreadable := s.journal.unreadable
    unreadableReads := s.journal.unreadableReads, firstNeeded := s.journal.firstNeeded }

/-- The WEAR page; with no usable block its figures are free. -/
def wearPage (s : State) : Result :=
  match (usableBlocks s).map (·.erases) with
  | [] => .wearPage Config.noEraseCount Config.noEraseCount
  | n :: rest => .wearPage ((n :: rest).sum / (n :: rest).length) (rest.foldl max n)

/-- The count of RETIRED blocks. -/
def retiredCount (s : State) : Nat := (s.journal.blocks.filter fun b => b.state = .retired).length

def channelFigures (x : Channel) : ChannelFigures :=
  { totalizer := x.meter.totalizer, unticketed := x.meter.unticketed, gaps := x.meter.gapsSinceStart
    retries := x.gate.retries }

/-- A health page; none for a number that is not served. -/
def healthPage (s : State) (page : Nat) : Option Result :=
  match page with
  | 1 => some (.journalPage (journalPage s))
  | 2 => some (wearPage s)
  | 3 => some (.retirementPage (retiredCount s) s.journal.lastRetired s.journal.lostTotal)
  | 4 => some (.linePage s.line.fcnt s.line.ccnt)
  | 5 => some (.channelPage (channelFigures s.chA) (channelFigures s.chB))
  | _ => none

def ownReadHealth (page : Nat) : Owner := fun station _ s =>
  match healthPage s page with
  | some r => accept station r s
  | none => refuse station .notFound s

def execReadHealth (src seq : Byte) (page : Nat) (s : State) : Host.Outcome State Fault Refusal :=
  event (takeRequest src seq 0x42 (ownReadHealth page)) s

end Sys2Proof.Machine
end

