-- ==== Sys2Proof/Machine/MetrologyRequests.lean ====
section
/-! DEFINITION. The metrology unit's requests: WRITE METROLOGY SETTING, OPEN PROVING, PROVING RESULT, APPLY FACTOR, CLEAR
LOCKOUT. -/
namespace Sys2Proof.Machine

/-! ### WRITE METROLOGY SETTING (R188) -/

/-- The AUDIT record of a metrology setting (R189). -/
def settingAudit (s : State) (k : MetSetting) (v : Int) (station : Byte) (provingSeq observed : Nat) : AuditBody :=
  { change := .setting k, counter := .calibration, station := station, old := .setting (metValue s.store.metset k)
    new := .setting v, provingSeq := provingSeq, observed := observed, committed := 0 }

def writeMetChecks (s : State) (k : Option MetSetting) (v : Int) : List (Bool × RefCode) :=
  [(notLocked s, .lockout), (k.any fun x => metInRange x v, .argument), (accepts s, .journalFull)]

def ownWriteMetrologySetting (k : Option MetSetting) (v : Int) : Owner := fun station _ s =>
  checked (writeMetChecks s k v) station (fun s =>
    match k with
    | some x =>
      if metValue s.store.metset x = v then accept station (.counter s.met.cal) s
      else handAppend (.manage station (.audit (settingAudit s x v station 0 0))) s
    | none => s) s

def execWriteMetrologySetting (src seq : Byte) (k : Option MetSetting) (v : Int) (s : State) :
    Host.Outcome State Fault Refusal :=
  event (takeRequest src seq 0x50 (ownWriteMetrologySetting k v)) s

/-! ### OPEN PROVING (R191) -/

def openProvingChecks (s : State) (c : Chan) (litres : Nat) : List (Bool × RefCode) :=
  [(!barred s c, .inUse),
   (notLocked s, .lockout),
   (between 1 9999 litres, .argument),
   ((s.ch c).ctx.state = .idle && (s.ch c).heldPrint.isNone, .state),
   (complete s c, .table),
   (accepts s, .journalFull)]

/-- The context of an accepted OPEN PROVING (R191, steps 1 and 2). -/
def openProvingCtx (s : State) (litres : Nat) (x : Ctx) : Ctx :=
  { x with
    mode := .proving, drop := none, comp := none, product := none, authorised := litres * 100, reservation := 0
    openTime := s.power.clock, openUnset := s.power.unset
    flags := { x.flags with clockUnset := s.power.unset } }

/-- A channel other than A or B fails check 2, after the lockout check (R191). -/
def ownOpenProving (chan : Option Chan) (litres : Nat) : Owner := fun station _ s =>
  match chan with
  | none => refuse station (if notLocked s then .argument else .lockout) s
  | some c =>
    checked (openProvingChecks s c litres) station (fun s =>
      accept station (.provingOpened (litres * 100)) (leaveIdle c (modCtx c (openProvingCtx s litres) s))) s

def execOpenProving (src seq : Byte) (chan : Option Chan) (litres : Nat) (s : State) :
    Host.Outcome State Fault Refusal :=
  event (takeRequest src seq 0x51 (ownOpenProving chan litres)) s

/-! ### PROVING RESULT (R193) -/

/-- A channel's proving result (R187). -/
def provingResultOf (m : Metrology) : Chan → Option ProvingResult
  | .a => m.resultA
  | .b => m.resultB

/-- The proposed factor: observed volume × 10000 over P, rounded down (R193). -/
def proposedFactor (r : ProvingResult) (observed : Nat) : Nat := observed * 10000 / r.pulses

def provingResultChecks (s : State) (chan : Option Chan) (observed : Nat) : List (Bool × RefCode) :=
  [(notLocked s, .lockout), (chan.isSome && between 1 999999 observed, .argument),
   ((chan.bind (provingResultOf s.met)).isSome, .argument)]

/-- PROVING RESULT past its checks 1 to 3. -/
def provingResultNow (c : Chan) (r : ProvingResult) (observed : Nat) (station : Byte) (s : State) : State :=
  let factor := proposedFactor r observed
  if between 9000 11000 factor then
    accept station (.proposed factor (factorInForce s.store.metset c) r.pulses r.temp r.seq)
      (modMet (fun m => { m with proposal := some { chan := c, factor := factor, seq := r.seq, observed := observed } }) s)
  else reply station (some .argument) (.computed factor) s

def ownProvingResult (chan : Option Chan) (observed : Nat) : Owner := fun station _ s =>
  checked (provingResultChecks s chan observed) station (fun s =>
    match chan, chan.bind (provingResultOf s.met) with
    | some c, some r => provingResultNow c r observed station s
    | _, _ => s) s

def execProvingResult (src seq : Byte) (chan : Option Chan) (observed : Nat) (s : State) :
    Host.Outcome State Fault Refusal :=
  event (takeRequest src seq 0x52 (ownProvingResult chan observed)) s

/-! ### APPLY FACTOR (R194) -/

/-- The metrology setting that is a channel's meter factor. -/
def factorSetting : Chan → MetSetting
  | .a => .factorA
  | .b => .factorB

def applyFactorChecks (s : State) (station : Byte) : List (Bool × RefCode) :=
  [(notLocked s, .lockout), (s.met.proposal.isSome, .state), (!otherInProgress s station 0x53, .busy),
   (accepts s, .journalFull)]

def ownApplyFactor : Owner := fun station _ s =>
  checked (applyFactorChecks s station) station (fun s =>
    match s.met.proposal with
    | some p =>
      if factorInForce s.store.metset p.chan = p.factor then
        accept station .nothing (modMet (fun m => { m with proposal := none }) s)
      else
        handAppend (.manage station
          (.audit (settingAudit s (factorSetting p.chan) p.factor station p.seq p.observed))) s
    | none => s) s

def execApplyFactor (src seq : Byte) (s : State) : Host.Outcome State Fault Refusal :=
  event (takeRequest src seq 0x53 ownApplyFactor) s

/-! ### CLEAR LOCKOUT (R152) -/

def clearLockoutChecks (s : State) (station : Byte) : List (Bool × RefCode) :=
  [(!notLocked s, .state), (s.ctl.lockout = .storage, .state),
   (s.ctl.clearing.isNone && !otherInProgress s station 0x54, .busy)]

def ownClearLockout : Owner := fun station _ s =>
  checked (clearLockoutChecks s station) station (fun s =>
    clearNext (modCtl (fun k => { k with clearing := some { station := station, committed := [] } }) s)) s

def execClearLockout (src seq : Byte) (s : State) : Host.Outcome State Fault Refusal :=
  event (takeRequest src seq 0x54 ownClearLockout) s

end Sys2Proof.Machine
end

