-- ==== Sys2Proof/Machine/SystemRequests.lean ====
section
/-! DEFINITION. The supply monitor's requests (STATUS, SET CLOCK, RESTART), the request of each command, and REQUEST
frames that come as bytes. -/
namespace Sys2Proof.Machine

/-! ### STATUS (R197) -/

def statusOf (s : State) : StatusInfo :=
  { starting := s.power.state = .starting, lockout := s.ctl.lockout
    stateA := s.chA.ctx.state, modeA := s.chA.ctx.mode, stateB := s.chB.ctx.state, modeB := s.chB.ctx.mode
    switchOpen := s.pins.switchOpen, level := s.power.level, ignitionOn := s.pins.ignitionOn
    routeId := routeIdOf s, free := freeSlots s, undrained := (undrained s.journal).length
    clock := s.power.clock, unset := s.power.unset }

def ownStatus : Owner := fun station _ s => accept station (.status (statusOf s)) s

def execStatus (src seq : Byte) (s : State) : Host.Outcome State Fault Refusal :=
  event (takeRequest src seq 0x60 ownStatus) s

/-! ### SET CLOCK (R198) -/

def ownSetClock (seconds : Option Nat) : Owner := fun station _ s =>
  match seconds with
  | some n =>
    if n ≤ top32 then
      accept station (.clock s.power.clock s.power.unset) (modPower (fun p => { p with clock := n, unset := false }) s)
    else refuse station .argument s
  | none => refuse station .argument s

def execSetClock (src seq : Byte) (seconds : Option Nat) (s : State) : Host.Outcome State Fault Refusal :=
  event (takeRequest src seq 0x61 (ownSetClock seconds)) s

/-! ### RESTART (R203) -/

/-- Another station has a request in progress. -/
def othersInProgress (s : State) (station : Byte) : Bool := s.req.inProgress.any fun p => p.station != station

def restartChecks (s : State) (station : Byte) : List (Bool × RefCode) :=
  [(s.ctl.lockout != .storage, .lockout), (bothIdle s, .state), (!othersInProgress s station, .busy)]

def ownRestart : Owner := fun station _ s =>
  checked (restartChecks s station) station (fun s =>
    accept station .nothing (modReq (fun r => { r with restart := some false }) s)) s

def execRestart (src seq : Byte) (s : State) : Host.Outcome State Fault Refusal :=
  event (takeRequest src seq 0x62 ownRestart) s

/-! ### The request a command is -/

/-- The code and the owner of a request command; none for a command that is no request. -/
def requestOfCommand : Instr → Option (Byte × Owner)
  | .openTicket _ _ drop chan comp => some (0x10, ownOpenTicket drop chan comp)
  | .closeTicket _ _ chan => some (0x11, ownCloseTicket chan)
  | .clearHold _ _ chan => some (0x12, ownClearHold chan)
  | .retryClose _ _ chan => some (0x13, ownRetryClose chan)
  | .reprint _ _ n => some (0x14, ownReprint n)
  | .readPending _ _ chan => some (0x15, ownReadPending chan)
  | .openRoute _ _ => some (0x20, ownOpenRoute)
  | .closeRoute _ _ => some (0x21, ownCloseRoute)
  | .nextDrop _ _ => some (0x22, ownNextDrop)
  | .readDrop _ _ n => some (0x23, ownReadDrop n)
  | .skip _ _ n => some (0x24, ownSkip n)
  | .restore _ _ n => some (0x25, ownRestore n)
  | .addDrop _ _ form => some (0x26, ownAddDrop form)
  | .cancelDrop _ _ n => some (0x27, ownCancelDrop n)
  | .readTotals _ _ => some (0x28, ownReadTotals)
  | .beginLoad _ _ kind n => some (0x30, ownBeginLoad kind n)
  | .loadPiece _ _ n entries ragged => some (0x31, ownLoadPiece n entries ragged)
  | .activate _ _ => some (0x32, ownActivate)
  | .abandon _ _ => some (0x33, ownAbandon)
  | .writeSetting _ _ k v => some (0x34, ownWriteSetting k v)
  | .readRecord _ _ n => some (0x40, ownReadRecord n)
  | .releaseThrough _ _ n => some (0x41, ownReleaseThrough n)
  | .readHealth _ _ n => some (0x42, ownReadHealth n)
  | .loadCompartment _ _ comp product litres => some (0x48, ownLoadCompartment comp product litres)
  | .writeMetrologySetting _ _ k v => some (0x50, ownWriteMetrologySetting k v)
  | .openProving _ _ chan n => some (0x51, ownOpenProving chan n)
  | .provingResult _ _ chan n => some (0x52, ownProvingResult chan n)
  | .applyFactor _ _ => some (0x53, ownApplyFactor)
  | .clearLockout _ _ => some (0x54, ownClearLockout)
  | .status _ _ => some (0x60, ownStatus)
  | .setClock _ _ n => some (0x61, ownSetClock n)
  | .restart _ _ => some (0x62, ownRestart)
  | .powerOn _ | .storeRead _ | .reconstruction _ _ | .startingResume _ | .startingPowerLoss _ | .supplyLow _
  | .supplyNormal _ | .brown _ | .ignitionOff | .ignitionOn | .standbyDelayExpiry | .metrologySwitchOpen
  | .metrologySwitchClose | .clockSecond | .malformedFrame _ _ | .tally _ _ _ _ _ _ | .probe _ _ _ _ _
  | .contact _ _ _ _ | .reelContact _ _ _ _ | .valveAnswer _ _ _ _ _ | .cabValveClosed _ _ _ _
  | .cabValveOpen _ _ _ _ _ | .throughFrame _ _ | .nonRequestToZero _ _ _ _ | .unknownStationRequest _ _ _
  | .unknownRequestCode _ _ _ | .fTransmitEnd | .cTransmitEnd | .silenceTimerExpiry _ | .probeStalenessExpiry _
  | .noticeTimerExpiry _ | .settleQuietExpiry _ | .settleLimitExpiry _ | .answerTimerExpiry _ | .arbiterTake
  | .recordProgramEnd _ _ _ | .drainedMarkEnd _ _ | .eraseStart | .eraseEnd _ _ | .storeWriteEnd _ _
  | .recordReadEnd _ => none

/-- The owner of a request whose payload is its code alone: the requests without arguments (11.2). -/
def bareOwner (code : Byte) : Option Owner :=
  if code = 0x20 then some ownOpenRoute
  else if code = 0x21 then some ownCloseRoute
  else if code = 0x22 then some ownNextDrop
  else if code = 0x28 then some ownReadTotals
  else if code = 0x32 then some ownActivate
  else if code = 0x33 then some ownAbandon
  else if code = 0x53 then some ownApplyFactor
  else if code = 0x54 then some ownClearLockout
  else if code = 0x60 then some ownStatus
  else if code = 0x62 then some ownRestart
  else none

/-- An owner that finds no readable arguments refuses ARGUMENT, ahead of its other checks (notes/assumptions/60.md). -/
def refuseArgument : Owner := fun station _ s => refuse station .argument s

/-- The owner of a REQUEST frame's payload: a request without arguments, or what its argument bytes spell
(notes/assumptions/10.md). Where they do not read, the refusal comes before every check of the owner's
(notes/assumptions/60.md). -/
def payloadOwner (code : Byte) (arguments : List Byte) : Owner :=
  match arguments, bareOwner code with
  | [], some owner => owner
  | _, _ =>
    match (Config.requestOf (code :: arguments)).bind requestOfCommand with
    | some r => if r.1 = code then r.2 else refuseArgument
    | none => refuseArgument

/-- A REQUEST frame to 0 handed by the line interface, as bytes: it must carry a code (R5, R9). -/
def servePayload (src seq : Byte) (payload : List Byte) (s : State) : State :=
  match payload with
  | code :: arguments => serve src seq code (payloadOwner code arguments) s
  | [] => if (stationClass s src).isSome then countCheck .c s else countUnknown s

/-- A REQUEST frame to 0 arrives on port C, as bytes. -/
def takePayload (src seq : Byte) (payload : List Byte) (s : State) : State :=
  frameToZero src (servePayload src seq payload) s

/-! ### UNKNOWN_REQUEST_CODE and UNKNOWN_STATION_REQUEST (R9, R195) -/

/-- A request of a code alone; a code that is not in the list is refused ARGUMENT (R195, step 4). -/
def execUnknownRequestCode (src seq code : Byte) (s : State) : Host.Outcome State Fault Refusal :=
  event (takePayload src seq [code]) s

/-- A REQUEST frame whose source is not in the station table is dropped and counted (R9). -/
def execUnknownStationRequest (src seq : Byte) (payload : List Byte) (s : State) :
    Host.Outcome State Fault Refusal :=
  event (takePayload src seq payload) s

end Sys2Proof.Machine
end

