-- ==== Sys2Proof/Machine/Frames.lean ====
section
/-! DEFINITION. What becomes of each arriving frame (R2, R8 to R12, R18, R20, R22), and the frame commands. -/
namespace Sys2Proof.Machine

/-! ### Counting and hearing -/

def countStray (s : State) : State := modFCounters (fun k => { k with stray := stopAt 65535 (k.stray + 1) }) s

def countValveOrder (s : State) : State :=
  modCCounters (fun k => { k with valveOrders := stopAt 65535 (k.valveOrders + 1) }) s

/-- A node's timer restarts and its lapse mark clears (R18). -/
def hearTimer (node : Byte) (t : NodeTimer) : NodeTimer :=
  if t.node = node then { t with running := true, lapsed := false } else t

/-- Each frame received on port F counts as hearing its source (R18). -/
def hear (node : Byte) (s : State) : State :=
  modCh .b (fun x => { x with silence := x.silence.map (hearTimer node) })
    (modCh .a (fun x => { x with silence := x.silence.map (hearTimer node) }) s)

/-- The active node map's entry of an address (R6). -/
def nodeAt (s : State) (address : Byte) : Option NodeEntry :=
  (entriesOf s.store.nodes).find? fun e => e.address = address

/-! ### Port F (R8, R10, R11) -/

/-- With raw echo ON, a consumed frame is copied to port C after its hand-off (R11). The value notice that the hand-off
gives rise to is judged at the command's end, after the copy (notes/assumptions/50.md). -/
def echo (f : Frame) (s : State) : State := if s.store.settings.rawEcho then forwardC f s else s

/-- The channel meter's take of a consumed frame, where it passes the form check of R5. -/
def consumed (n : NodeEntry) (f : Frame) : Option (State → State) :=
  match n.role with
  | .tally => (tallyOf f.payload).map fun t =>
      takeTally n.chan { seq := f.seq, fwd := t.1, rev := t.2.1, elapsed := t.2.2 }
  | .probe => (probeOf f.payload).map fun p => takeProbe n.chan p.1 p.2
  | .vapour => (vapourOf f.payload).map fun v => takeVapour n.chan v
  | .reel => (reelOf f.payload).map fun r => takeReel n.chan r
  | .valve => none

/-- A sensor broadcast: consumed, failing its form check, or stray (R5, R8). -/
def sensorFrame (f : Frame) (s : State) : State :=
  match nodeAt s f.src with
  | some n =>
    if roleSends n.role f.kind then
      match consumed n f with
      | some take => echo f (take s)
      | none => countCheck .f s
    else countStray s
  | none => countStray s

/-- A VALVE ANSWER addressed to 0 on port F (R8). -/
def answerFrameIn (f : Frame) (s : State) : State :=
  match nodeAt s f.src with
  | some n =>
    if n.role = .valve then
      match positionAndNumber f.payload with
      | some x => takeValveAnswer n.chan x.1 x.2 s
      | none => countCheck .f s
    else countStray s
  | none => countStray s

/-- The kinds of sensor broadcasts. -/
def isSensorKind (k : Byte) : Bool := k = kindTally || k = kindProbe || k = kindContact

/-- The first row of R8 that a frame received on port F matches. -/
def decideF (f : Frame) (s : State) : State :=
  if f.dst = 127 && isSensorKind f.kind then sensorFrame f s
  else if f.dst = 0 && f.kind = kindValveAnswer then answerFrameIn f s
  else forwardC f s

/-- A frame arrives on port F: taken in STARTING and ON only (R22). -/
def receiveF (f : Frame) (s : State) : State :=
  match s.power.state with
  | .off | .standby | .shutdown => s
  | .starting | .on => if frameOk f then decideF f (hear f.src s) else countCheck .f s

/-! ### Port C (R9) -/

/-- A VALVE ORDER to another address than 0: gated, or dropped and counted (R9). -/
def orderFrameIn (f : Frame) (s : State) : State :=
  match nodeAt s f.dst with
  | some n =>
    if n.role = .valve then
      match positionAndNumber f.payload with
      | some x => takeCabOrder n.chan x.1 f.src f.seq x.2 s
      | none => countCheck .c s
    else countValveOrder s
  | none => countValveOrder s

/-- The first row of R9 that a frame received on port C matches. -/
def decideC (f : Frame) (s : State) : State :=
  if f.dst = 0 then
    if f.kind = kindRequest then servePayload f.src f.seq f.payload s else countCheck .c s
  else if f.kind = kindValveOrder then orderFrameIn f s
  else forwardF f s

/-- A frame arrives on port C: in STANDBY only one addressed to 0 is taken, and it wakes the part (R22). -/
def receiveC (f : Frame) (s : State) : State :=
  match s.power.state with
  | .off | .shutdown => s
  | .standby => if frameOk f && f.dst = 0 then decideC f (wake s) else s
  | .starting | .on => if frameOk f then decideC f s else countCheck .c s

/-! ### Assembled bytes (R2) -/

/-- A frame arrives on a port. -/
def receive (p : Port) (f : Frame) (s : State) : State :=
  match p with
  | .f => receiveF f s
  | .c => receiveC f s

/-- A frame that fails R2 is dropped and counted, in STARTING and ON (R2, R22). -/
def failedFrame (p : Port) (s : State) : State :=
  match s.power.state with
  | .off | .standby | .shutdown => s
  | .starting | .on => countCheck p s

/-- A run of bytes between two idle gaps (R2). -/
def receiveBytes (p : Port) (bytes : List Byte) (s : State) : State :=
  match parseFrame bytes with
  | some f => receive p f s
  | none => failedFrame p s

/-! ### The commands -/

def execMalformedFrame (port : Port) (bytes : List Byte) (s : State) : Host.Outcome State Fault Refusal :=
  event (receiveBytes port bytes) s

def execTally (dst src seq : Byte) (fwd rev elapsed : Word16) (s : State) : Host.Outcome State Fault Refusal :=
  event (receiveF { dst := dst, src := src, kind := kindTally, seq := seq, payload := tallyPayload fwd rev elapsed }) s

def execProbe (dst src seq : Byte) (temp : Word16) (status : Byte) (s : State) :
    Host.Outcome State Fault Refusal :=
  event (receiveF { dst := dst, src := src, kind := kindProbe, seq := seq, payload := probePayload temp status }) s

def execContact (dst src seq state : Byte) (s : State) : Host.Outcome State Fault Refusal :=
  event (receiveF { dst := dst, src := src, kind := kindContact, seq := seq, payload := [state] }) s

/-- A CONTACT frame of a REEL node; the node's role decides, as for CONTACT (R8, R59). -/
def execReelContact (dst src seq state : Byte) (s : State) : Host.Outcome State Fault Refusal :=
  event (receiveF { dst := dst, src := src, kind := kindContact, seq := seq, payload := [state] }) s

def execValveAnswer (dst src seq position number : Byte) (s : State) : Host.Outcome State Fault Refusal :=
  event (receiveF { dst := dst, src := src, kind := kindValveAnswer, seq := seq, payload := [position, number] }) s

/-- A cab VALVE ORDER frame for a position. -/
def cabOrderFrame (dst src seq : Byte) (p : Pos) (number : Byte) : Frame :=
  { dst := dst, src := src, kind := kindValveOrder, seq := seq, payload := [BitVec.ofNat 8 (posCode p), number] }

def execCabValveClosed (dst src seq number : Byte) (s : State) : Host.Outcome State Fault Refusal :=
  event (receiveC (cabOrderFrame dst src seq .closed number)) s

def execCabValveOpen (dst src seq : Byte) (full : Bool) (number : Byte) (s : State) :
    Host.Outcome State Fault Refusal :=
  event (receiveC (cabOrderFrame dst src seq (if full then .full else .slow) number)) s

def execThroughFrame (port : Port) (frame : Frame) (s : State) : Host.Outcome State Fault Refusal :=
  event (receive port frame) s

def execNonRequestToZero (src kind seq : Byte) (payload : List Byte) (s : State) :
    Host.Outcome State Fault Refusal :=
  event (receiveC { dst := 0, src := src, kind := kind, seq := seq, payload := payload }) s

end Sys2Proof.Machine
end

