-- ==== Sys2Proof/Machine/PowerEvents.lean ====
section
/-! DEFINITION. The supply, the ignition, the metrology switch, the clock, start-up and standby as commands. -/
namespace Sys2Proof.Machine

/-! ### The supply sense (R199, R202): each row is the sense showing a voltage -/

def execPowerOn (mv : Nat) (s : State) : Host.Outcome State Fault Refusal := event (senseVoltage mv) s

def execStartingResume (mv : Nat) (s : State) : Host.Outcome State Fault Refusal := event (senseVoltage mv) s

def execStartingPowerLoss (mv : Nat) (s : State) : Host.Outcome State Fault Refusal := event (senseVoltage mv) s

def execSupplyLow (mv : Nat) (s : State) : Host.Outcome State Fault Refusal := event (senseVoltage mv) s

def execSupplyNormal (mv : Nat) (s : State) : Host.Outcome State Fault Refusal := event (senseVoltage mv) s

def execBrown (mv : Nat) (s : State) : Host.Outcome State Fault Refusal := event (senseVoltage mv) s

/-! ### Start-up (R38, R184) -/

def execStoreRead (failing : List Region) (s : State) : Host.Outcome State Fault Refusal :=
  event (storeReadDone failing) s

def execReconstruction (badSlots : List (Nat × Nat)) (badHeaders : List Nat) (s : State) :
    Host.Outcome State Fault Refusal :=
  event (reconstruct badSlots badHeaders) s

/-! ### Ignition and standby (R200) -/

def setIgnition (on : Bool) (s : State) : State := { s with pins := { s.pins with ignitionOn := on } }

/-- The ignition changes to OFF; the standby delay timer is judged at the command's end. -/
def execIgnitionOff (s : State) : Host.Outcome State Fault Refusal := event (setIgnition false) s

/-- The ignition changes to ON, which wakes the part from STANDBY. -/
def execIgnitionOn (s : State) : Host.Outcome State Fault Refusal := event (fun s => wake (setIgnition true s)) s

/-- The standby delay timer expires, if it runs. -/
def standbyExpiry (s : State) : State := if s.power.standby.isSome then enterStandby s else s

def execStandbyDelayExpiry (s : State) : Host.Outcome State Fault Refusal := event standbyExpiry s

/-! ### The metrology switch (R138, R186) -/

def setSwitch (isOpen : Bool) (s : State) : State := { s with pins := { s.pins with switchOpen := isOpen } }

/-- The switch input reads OPEN: at a change from CLOSED, METROLOGY is handed to both contexts, channel A's first
(notes/assumptions/51.md). -/
def switchOpens (s : State) : State :=
  if s.pins.switchOpen then s
  else
    let s := setSwitch true s
    if s.power.state = .off then s else handCauses .b [.metrology] 0 (handCauses .a [.metrology] 0 s)

def execMetrologySwitchOpen (s : State) : Host.Outcome State Fault Refusal := event switchOpens s

/-- The switch input reads CLOSED: no cause is handed. -/
def execMetrologySwitchClose (s : State) : Host.Outcome State Fault Refusal := event (setSwitch false) s

/-! ### The clock (R198) -/

/-- One second passes: the clock counts in every state but OFF and stops at its top. -/
def clockTick (s : State) : State :=
  if s.power.state = .off then s else modPower (fun p => { p with clock := stopAt top32 (p.clock + 1) }) s

def execClockSecond (s : State) : Host.Outcome State Fault Refusal := event clockTick s

end Sys2Proof.Machine
end

