-- ==== Sys2Proof/Machine/Timers.lean ====
section
/-! DEFINITION. The ends of transmissions and the timers' expiries. An expiry of a timer that is stopped changes nothing
(notes/assumptions/1.md). -/
namespace Sys2Proof.Machine

/-! ### Transmitters (R14, R17, R119, R203) -/

/-- The frame that has been sent is the outstanding order of its gate: SENT, and its answer timer starts (R119); in
STANDBY the timer does not start (R136, notes/assumptions/30.md). -/
def orderSent (c : Chan) (number : Byte) (s : State) : State :=
  match (s.ch c).gate.outstanding with
  | some o =>
    if o.number = number then
      modGate c (fun g =>
        { g with outstanding := some { o with phase := .sent }, timer := s.power.state != .standby }) s
    else s
  | none => s

/-- The gate of a valve order is told that it has been sent. -/
def fFrameSent (f : FFrame) (s : State) : State :=
  match f with
  | .fwd _ => s
  | .order c _ _ _ number => orderSent c number s

/-- The F transmitter ends its frame and starts the next (R14). -/
def fEnd (s : State) : State :=
  match s.line.fline with
  | some f => startF (fFrameSent f (modLine (fun l => { l with fline := none }) s))
  | none => s

def execFTransmitEnd (s : State) : Host.Outcome State Fault Refusal := event fEnd s

/-- The reply DONE to a RESTART (R203); RESTART has code 0x62. -/
def isRestartReply : CFrame → Bool
  | .reply r => r.code = 0x62 && r.refusal.isNone
  | .fwd _ | .notice _ _ _ | .print _ _ | .answer _ => false

/-- When the reply of an accepted RESTART has been sent, the restart may begin. -/
def restartReplySent (f : CFrame) (s : State) : State :=
  if isRestartReply f then modReq (fun r => { r with restart := r.restart.map fun _ => true }) s else s

/-- The C transmitter ends its frame and starts the next (R17); a restart begins that waited for its reply (R203). -/
def cEnd (s : State) : State :=
  match s.line.cline with
  | some f => restartWhenReady (startC (restartReplySent f (modLine (fun l => { l with cline := none }) s)))
  | none => s

def execCTransmitEnd (s : State) : Host.Outcome State Fault Refusal := event cEnd s

/-! ### Silence (R19) -/

/-- A running timer of the node on a channel. -/
def runsSilence (x : Channel) (node : Byte) : Bool := x.silence.any fun t => t.node = node && t.running

/-- The lapse mark is set and the timer stops. -/
def lapseTimer (node : Byte) (t : NodeTimer) : NodeTimer :=
  if t.node = node then { t with running := false, lapsed := true } else t

/-- A node's timer reaches its limit on a channel: SILENT is handed with the node's address (R19). -/
def lapse (c : Chan) (node : Byte) (s : State) : State :=
  if runsSilence (s.ch c) node then
    handCauses c [.silent] node (modCh c (fun x => { x with silence := x.silence.map (lapseTimer node) }) s)
  else s

def execSilenceTimerExpiry (node : Byte) (s : State) : Host.Outcome State Fault Refusal :=
  event (fun s => lapse .b node (lapse .a node s)) s

/-! ### Probe staleness (R53) -/

/-- The staleness timer expires: the fresh mark clears, and PROBE is handed in a metering state. -/
def goStale (c : Chan) (s : State) : State :=
  match (s.ch c).meter.stale with
  | .running =>
    let s := modMeter c (fun m => { m with stale := .expired, fresh := false }) s
    if metering (s.ch c).ctx.state then meterCauses c [.probe] s else s
  | .stopped | .expired => s

def execProbeStalenessExpiry (chan : Chan) (s : State) : Host.Outcome State Fault Refusal := event (goStale chan) s

/-! ### Notices (R63) -/

/-- The notice interval timer expires: a pending notice is produced, or the timer stops. -/
def noticeExpiry (c : Chan) (s : State) : State :=
  if (s.ch c).meter.noticeTimer then
    let pending := (s.ch c).meter.noticePending
    let s := modMeter c (fun m => { m with noticeTimer := false }) s
    if pending then produceNotice c s else s
  else s

def execNoticeTimerExpiry (chan : Chan) (s : State) : Host.Outcome State Fault Refusal := event (noticeExpiry chan) s

/-! ### Settling (R95, R96) -/

/-- The quiet timer expires: the context becomes PAUSED, or closes with origin AUTO (R95). -/
def settled (c : Chan) (s : State) : State :=
  match (s.ch c).ctx.state, (s.ch c).ctx.quiet with
  | .settling, some _ =>
    if (s.ch c).ctx.autoClose then beginClose c .auto none s
    else
      produceNotice c (resetCreep c (modCtx c (fun x => { x with state := .paused, quiet := none, limit := none }) s))
  | _, _ => s

def execSettleQuietExpiry (chan : Chan) (s : State) : Host.Outcome State Fault Refusal := event (settled chan) s

/-- The limit timer expires: CREEP is latched and CREEP-SEEN set (R96, R102). -/
def neverSettled (c : Chan) (s : State) : State :=
  match (s.ch c).ctx.state, (s.ch c).ctx.limit with
  | .settling, some _ =>
    handCauses c [.creep] 0 (modCtx c (fun x => { x with flags := { x.flags with creepSeen := true } }) s)
  | _, _ => s

def execSettleLimitExpiry (chan : Chan) (s : State) : Host.Outcome State Fault Refusal := event (neverSettled chan) s

/-! ### The answer timer (R119, R136) -/

/-- A resend raises the valve retries count, but not in SHUTDOWN (R119, R136). -/
def countRetry (c : Chan) (s : State) : State :=
  if s.power.state = .shutdown then s else modGate c (fun g => { g with retries := stopAt 65535 (g.retries + 1) }) s

/-- A miss from the second on sets the miss mark and hands VALVE, but no cause is handed in SHUTDOWN (R119, R136). -/
def secondMiss (c : Chan) (s : State) : State :=
  let s := modGate c (fun g => { g with missed := true }) s
  if s.power.state = .shutdown then s else handCauses c [.valve] 0 s

/-- Send the outstanding order again as one more attempt (R119). -/
def resendMissed (c : Chan) (o : Order) (s : State) : State := countRetry c (resendOrder c o (o.attempts + 1) s)

/-- An order has missed (R119). A CLOSED order is resent at every miss; VALVE is handed first from the second on. -/
def orderMissed (c : Chan) (o : Order) (s : State) : State :=
  if o.attempts < 2 then resendMissed c o s
  else
    match o.position with
    | .closed => resendMissed c o (secondMiss c s)
    | .slow | .full => secondMiss c s

/-- The answer timer expires with the order unconfirmed. -/
def answerExpiry (c : Chan) (s : State) : State :=
  match (s.ch c).gate.timer, (s.ch c).gate.outstanding with
  | true, some o => orderMissed c o (modGate c (fun g => { g with timer := false }) s)
  | _, _ => s

def execAnswerTimerExpiry (chan : Chan) (s : State) : Host.Outcome State Fault Refusal := event (answerExpiry chan) s

/-! ### Time with no command waiting (notes/assumptions/2.md) -/

/-- One millisecond passes for a rest timer (R142). -/
def restTick (c : Chan) (s : State) : State := modCtx c (fun x => { x with rest := x.rest.map (· + 1) }) s

/-- One millisecond passes: only the rest timers, which no command counts, go on. -/
def idle (s : State) : State := restTick .b (restTick .a s)

end Sys2Proof.Machine
end

