-- ==== Sys2Proof/Machine/Completions.lean ====
section
/-! DEFINITION. The journal's and the store's completions as commands. -/
namespace Sys2Proof.Machine

def execArbiterTake (s : State) : Host.Outcome State Fault Refusal := event arbiterStep s

def execRecordProgramEnd (ok : Bool) (left : SlotLeft) (report : RetireReport) (s : State) :
    Host.Outcome State Fault Refusal :=
  event (programEnded ok left report) s

def execDrainedMarkEnd (ok : Bool) (report : RetireReport) (s : State) : Host.Outcome State Fault Refusal :=
  event (markEnded ok report) s

def execEraseStart (s : State) : Host.Outcome State Fault Refusal := event startErase s

/-- An erase ends; a restart that waited for it begins (R203). -/
def execEraseEnd (ok markOk : Bool) (s : State) : Host.Outcome State Fault Refusal :=
  event (fun s => restartWhenReady (eraseEnded ok markOk s)) s

/-- The write of a region ends: the settings region's, or a table's (R35, R39, R71). -/
def regionWritten (region : Region) (ok : Bool) (s : State) : State :=
  match region with
  | .settings => settingsWriteEnded ok s
  | .table kind => tableWriteEnded kind ok s

def execStoreWriteEnd (region : Region) (ok : Bool) (s : State) : Host.Outcome State Fault Refusal :=
  event (regionWritten region ok) s

def execRecordReadEnd (readable : Bool) (s : State) : Host.Outcome State Fault Refusal := event (readEnded readable) s

end Sys2Proof.Machine
end

