-- ==== Sys2Proof/Machine/Dispatch.lean ====
section
/-! DEFINITION. The dispatch: one arm per command, each one direct call of its meaning. -/
namespace Sys2Proof.Machine

def exec (i : Instr) (s : State) : Host.Outcome State Fault Refusal :=
  match i with
  | .powerOn mv => Sys2Proof.Machine.execPowerOn mv s
  | .storeRead failing => Sys2Proof.Machine.execStoreRead failing s
  | .reconstruction badSlots badHeaders => Sys2Proof.Machine.execReconstruction badSlots badHeaders s
  | .startingResume mv => Sys2Proof.Machine.execStartingResume mv s
  | .startingPowerLoss mv => Sys2Proof.Machine.execStartingPowerLoss mv s
  | .supplyLow mv => Sys2Proof.Machine.execSupplyLow mv s
  | .supplyNormal mv => Sys2Proof.Machine.execSupplyNormal mv s
  | .brown mv => Sys2Proof.Machine.execBrown mv s
  | .ignitionOff => Sys2Proof.Machine.execIgnitionOff s
  | .ignitionOn => Sys2Proof.Machine.execIgnitionOn s
  | .standbyDelayExpiry => Sys2Proof.Machine.execStandbyDelayExpiry s
  | .metrologySwitchOpen => Sys2Proof.Machine.execMetrologySwitchOpen s
  | .metrologySwitchClose => Sys2Proof.Machine.execMetrologySwitchClose s
  | .clockSecond => Sys2Proof.Machine.execClockSecond s
  | .malformedFrame port bytes => Sys2Proof.Machine.execMalformedFrame port bytes s
  | .tally dst src seq fwd rev elapsed => Sys2Proof.Machine.execTally dst src seq fwd rev elapsed s
  | .probe dst src seq temp status => Sys2Proof.Machine.execProbe dst src seq temp status s
  | .contact dst src seq contact => Sys2Proof.Machine.execContact dst src seq contact s
  | .reelContact dst src seq contact => Sys2Proof.Machine.execReelContact dst src seq contact s
  | .valveAnswer dst src seq position number => Sys2Proof.Machine.execValveAnswer dst src seq position number s
  | .cabValveClosed dst src seq number => Sys2Proof.Machine.execCabValveClosed dst src seq number s
  | .cabValveOpen dst src seq full number => Sys2Proof.Machine.execCabValveOpen dst src seq full number s
  | .throughFrame port frame => Sys2Proof.Machine.execThroughFrame port frame s
  | .nonRequestToZero src kind seq payload => Sys2Proof.Machine.execNonRequestToZero src kind seq payload s
  | .unknownStationRequest src seq payload => Sys2Proof.Machine.execUnknownStationRequest src seq payload s
  | .unknownRequestCode src seq code => Sys2Proof.Machine.execUnknownRequestCode src seq code s
  | .openTicket src seq drop chan comp => Sys2Proof.Machine.execOpenTicket src seq drop chan comp s
  | .closeTicket src seq chan => Sys2Proof.Machine.execCloseTicket src seq chan s
  | .clearHold src seq chan => Sys2Proof.Machine.execClearHold src seq chan s
  | .retryClose src seq chan => Sys2Proof.Machine.execRetryClose src seq chan s
  | .reprint src seq sequence => Sys2Proof.Machine.execReprint src seq sequence s
  | .readPending src seq chan => Sys2Proof.Machine.execReadPending src seq chan s
  | .openRoute src seq => Sys2Proof.Machine.execOpenRoute src seq s
  | .closeRoute src seq => Sys2Proof.Machine.execCloseRoute src seq s
  | .nextDrop src seq => Sys2Proof.Machine.execNextDrop src seq s
  | .readDrop src seq drop => Sys2Proof.Machine.execReadDrop src seq drop s
  | .skip src seq drop => Sys2Proof.Machine.execSkip src seq drop s
  | .restore src seq drop => Sys2Proof.Machine.execRestore src seq drop s
  | .addDrop src seq form => Sys2Proof.Machine.execAddDrop src seq form s
  | .cancelDrop src seq drop => Sys2Proof.Machine.execCancelDrop src seq drop s
  | .readTotals src seq => Sys2Proof.Machine.execReadTotals src seq s
  | .beginLoad src seq kind count => Sys2Proof.Machine.execBeginLoad src seq kind count s
  | .loadPiece src seq first entries ragged => Sys2Proof.Machine.execLoadPiece src seq first entries ragged s
  | .activate src seq => Sys2Proof.Machine.execActivate src seq s
  | .abandon src seq => Sys2Proof.Machine.execAbandon src seq s
  | .writeSetting src seq setting value => Sys2Proof.Machine.execWriteSetting src seq setting value s
  | .readRecord src seq sequence => Sys2Proof.Machine.execReadRecord src seq sequence s
  | .releaseThrough src seq sequence => Sys2Proof.Machine.execReleaseThrough src seq sequence s
  | .readHealth src seq page => Sys2Proof.Machine.execReadHealth src seq page s
  | .loadCompartment src seq comp product litres => Sys2Proof.Machine.execLoadCompartment src seq comp product litres s
  | .writeMetrologySetting src seq setting value => Sys2Proof.Machine.execWriteMetrologySetting src seq setting value s
  | .openProving src seq chan litres => Sys2Proof.Machine.execOpenProving src seq chan litres s
  | .provingResult src seq chan observed => Sys2Proof.Machine.execProvingResult src seq chan observed s
  | .applyFactor src seq => Sys2Proof.Machine.execApplyFactor src seq s
  | .clearLockout src seq => Sys2Proof.Machine.execClearLockout src seq s
  | .status src seq => Sys2Proof.Machine.execStatus src seq s
  | .setClock src seq seconds => Sys2Proof.Machine.execSetClock src seq seconds s
  | .restart src seq => Sys2Proof.Machine.execRestart src seq s
  | .fTransmitEnd => Sys2Proof.Machine.execFTransmitEnd s
  | .cTransmitEnd => Sys2Proof.Machine.execCTransmitEnd s
  | .silenceTimerExpiry node => Sys2Proof.Machine.execSilenceTimerExpiry node s
  | .probeStalenessExpiry chan => Sys2Proof.Machine.execProbeStalenessExpiry chan s
  | .noticeTimerExpiry chan => Sys2Proof.Machine.execNoticeTimerExpiry chan s
  | .settleQuietExpiry chan => Sys2Proof.Machine.execSettleQuietExpiry chan s
  | .settleLimitExpiry chan => Sys2Proof.Machine.execSettleLimitExpiry chan s
  | .answerTimerExpiry chan => Sys2Proof.Machine.execAnswerTimerExpiry chan s
  | .arbiterTake => Sys2Proof.Machine.execArbiterTake s
  | .recordProgramEnd ok left report => Sys2Proof.Machine.execRecordProgramEnd ok left report s
  | .drainedMarkEnd ok report => Sys2Proof.Machine.execDrainedMarkEnd ok report s
  | .eraseStart => Sys2Proof.Machine.execEraseStart s
  | .eraseEnd ok markOk => Sys2Proof.Machine.execEraseEnd ok markOk s
  | .storeWriteEnd region ok => Sys2Proof.Machine.execStoreWriteEnd region ok s
  | .recordReadEnd readable => Sys2Proof.Machine.execRecordReadEnd readable s

end Sys2Proof.Machine
end

