-- ==== Sys2Proof/Safety.lean ====
section
/-! DEFINITION. What counts as a safe run, and the terms in which claims speak of states: a request that is taken, a frame
that has found its place, and the relations between fields that every step keeps. -/
namespace Sys2Proof.Machine

/-- A step that goes on: no fault and no refusal. -/
def goesOn (s : State) : Prop := ∃ t, step s = .next t

/-- The frame is on the C transmitter or holds a place of the C-bound queue. -/
def placedC (s : State) (f : CFrame) : Prop := s.line.cline = some f ∨ ∃ e ∈ s.line.cq, e.frame = f

/-- The frame is on the F transmitter or holds a place of the F-bound queue. -/
def placedF (s : State) (f : FFrame) : Prop := s.line.fline = some f ∨ f ∈ s.line.fq

/-- A reply to the station's request of a code and a sequence has found its place. -/
def replied (s : State) (station seq code : Byte) (refusal : Option RefCode) (result : Result) : Prop :=
  placedC s (.reply { dst := station, seq := seq, code := code, refusal := refusal, result := result })

/-- What a REQUEST frame of a station meets when the part is ON and takes it: an entry of the class in the station table,
no request of the station in progress, so that no reply to it waits for a place (R15), and no RESTART accepted (R9, R195,
R203). -/
structure Ready (s : State) (station : Byte) (k : Cls) : Prop where
  on : s.power.state = .on
  address : addressOk station = true
  entry : stationClass s station = some k
  free : ∀ p ∈ s.req.inProgress, p.station ≠ station
  unanswered : ∀ r : Reply, .reply r ∈ s.line.cwait → r.dst ≠ station
  running : s.req.restart = none

/-- A place that an answer frame may take is free (R15). -/
def AnswerRoom (s : State) : Prop := commonUsed s.line < 14 ∨ reservedUsed s.line < 2

/-- `n` common places of the C-bound queue are free, and no frame waits for one: frames wait only while the common places
are full (R15). -/
structure RoomFor (n : Nat) (s : State) : Prop where
  free : commonUsed s.line + n ≤ 14
  noneWaits : s.line.cwait = []

/-- Room for the notices, the print and the reply of one request. -/
def Roomy (s : State) : Prop := RoomFor 4 s

/-- A request of class `need` meets a station that is ready and whose class suffices (R196), and a place for its reply. -/
structure Admitted (s : State) (station : Byte) (k need : Cls) : Prop extends Ready s station k where
  room : AnswerRoom s
  allowed : clsRank need ≤ clsRank (actingClass s k)

/-- A station's request has ended: its reply has found its place, and the station has no request in progress (R195). -/
structure Answered (t : State) (station seq code : Byte) (refusal : Option RefCode) (result : Result) : Prop where
  placed : replied t station seq code refusal result
  ended : ∀ p ∈ t.req.inProgress, p.station ≠ station

/-- A station's request waits for an operation: it is in progress under the class it was judged under (R195). -/
def Waits (t : State) (station code seq : Byte) (cls : Cls) : Prop :=
  { station := station, code := code, seq := seq, cls := cls } ∈ t.req.inProgress

/-! ### The state apart from what sending frames changes -/

/-- A channel without its held print and the marks of its notices. -/
def Channel.offLine (x : Channel) : Channel :=
  { x with
    heldPrint := none
    noticeRef := none
    meter := { x.meter with noticeTimer := false, noticePending := false } }

/-- The state without what placing and sending the part's own frames changes: the queues and waiting frames, the held
prints, the marks of the notices, the requests whose replies are awaited, and the two things judged at every command's end
(the alert line, the standby delay timer). The line counters stay. A command's frame is told as an equality of these. -/
def State.offLine (s : State) : State :=
  { s with
    line := { fcnt := s.line.fcnt, ccnt := s.line.ccnt }
    chA := s.chA.offLine
    chB := s.chB.offLine
    req := { s.req with inProgress := [] }
    power := { s.power with standby := none }
    ctl := { s.ctl with alert := false } }

/-! ### What shared operations make of a channel -/

/-- A gate that has issued an order for a position, steps 1 to 4 of R118. -/
def orderedGate (g : Gate) (p : Pos) : Gate :=
  { g with
    nextOrder := g.nextOrder + 1
    outstanding := some { position := p, number := g.nextOrder, phase := .queued, attempts := 1 }
    timer := false, position := p, confirmed := false, missed := false }

/-- A channel whose gate issues an order, where the channel has a VALVE node (R118). -/
def ordered (s : State) (c : Chan) (p : Pos) (x : Channel) : Channel :=
  if (nodeOf s c .valve).isSome then { x with gate := orderedGate x.gate p } else x

/-- A channel whose gate is asked to close (R121). -/
def closedBy (s : State) (c : Chan) (x : Channel) : Channel :=
  if x.gate.position = .closed then x else ordered s c .closed x

/-- A context whose newest episode ends with a cause (R93). -/
def episodeEnded (s : State) (c : Chan) (cause : EndCause) (x : Ctx) : Ctx :=
  { x with
    episodes := modLastEpisode (fun e =>
      { e with endNet := some (liveFigure s c), cause := some cause, noFlow := x.episodePulses = 0 }) x.episodes }

/-- A context that a group of causes with primary `p` moves to HELD, steps 1 to 5 of R140. -/
def heldCtx (s : State) (c : Chan) (group : List Cause) (p : Cause) (silent : Byte) : Ctx :=
  let x := (s.ch c).ctx
  let ended := if x.state = .flowing then episodeEnded s c .hold x else x
  { ended with
    causes := joinCauses group x.causes, primary := some p, holdCount := min 255 (x.holdCount + 1)
    holds := if x.holds.length < 8 then x.holds ++ [holdEntry s c p silent] else x.holds
    quiet := none, limit := none, autoClose := false, state := .held, rest := some 0 }

/-- A channel to which a group of causes is handed (R97, R139, R140): an open context becomes HELD and its gate closes, a
HELD one takes the causes up, the others and an empty group change nothing. -/
def handed (s : State) (c : Chan) (group : List Cause) (silent : Byte) : Channel :=
  match primaryOf group, (s.ch c).ctx.state with
  | none, _ | _, .idle | _, .closing | _, .faulted => s.ch c
  | _, .held => { s.ch c with ctx := { (s.ch c).ctx with causes := joinCauses group (s.ch c).ctx.causes } }
  | some p, .armed | some p, .flowing | some p, .settling | some p, .paused =>
    closedBy s c { s.ch c with
      ctx := heldCtx s c group p silent
      meter := { (s.ch c).meter with creep := 0, creepMark := false } }

/-- A channel whose episode ends with a cause, and which settles (R93, R94). -/
def settledBy (s : State) (c : Chan) (cause : EndCause) : Channel :=
  closedBy s c { s.ch c with
    ctx := { episodeEnded s c cause (s.ch c).ctx with
      state := .settling, quiet := some s.store.settings.settleQuiet, limit := some s.store.settings.settleLimit
      autoClose := (s.ch c).ctx.autoClose || cause = .endAction } }

/-- A context whose close begins with an origin: the record is built and becomes the pending record (R98, R100, R106). -/
def closingCtx (s : State) (c : Chan) (origin : CloseOrigin) (requester : Option Byte) : Ctx :=
  let x := { (s.ch c).ctx with
    requester := requester, origin := origin, quiet := none, limit := none, rest := none, primary := none }
  let built := buildRecord (s.setCh c { s.ch c with ctx := x }) c
  { x with pending := some built, flags := builtFlags built x.flags, state := .closing }

/-- A channel that leaves IDLE for ARMED with a context: meter, silence timers and stop monitor are prepared (R18, R43,
R128). -/
def armedWith (s : State) (c : Chan) (x : Ctx) : Channel :=
  { s.ch c with
    ctx := { x with state := .armed }
    meter := { (s.ch c).meter with
      fwd := 0, rev := 0, weighted := 0, gaps := 0, firstTally := true, window := [], creep := 0, creepMark := false
      mf := (match x.mode with | .delivery => factorInForce s.store.metset c | .proving => 10000)
      offset := offsetInForce s.store.metset c, stale := .running }
    silence := ((entriesOf s.store.nodes).filter fun n => n.chan = c).map fun n => { node := n.address }
    monitor := { program := x.drop.map fun d => d.plan.program } }

/-- A channel that has returned to IDLE: the context's fields clear, the blocks stop; the gate's order and the meter's
baseline, readings and totals stay (R18, R44, R86, R121, R128). -/
def idled (x : Channel) : Channel :=
  { x with
    ctx := { mode := x.ctx.mode }
    meter := { x.meter with stale := .stopped, firstTally := false, window := [] }
    gate := { x.gate with requested := none, limited := false }
    monitor := {}
    silence := [] }

/-- A channel on which a start is accepted, steps 1 to 4 of R124. -/
def started (s : State) (c : Chan) (p : Pos) : Channel :=
  ordered s c (startPosition s c p) { s.ch c with
    ctx := { (s.ch c).ctx with
      episodes := (s.ch c).ctx.episodes ++ [{ startNet := liveFigure s c }], episodePulses := 0, state := .flowing }
    meter := { (s.ch c).meter with window := [] }
    gate := { (s.ch c).gate with requested := some p }
    monitor := { (s.ch c).monitor with
      countA := 0, countB := 0, tallies := 0, noteSeen := false
      firedA := (s.ch c).monitor.firedA && !watchIsRate s c StopProgram.watchA
      firedB := (s.ch c).monitor.firedB && !watchIsRate s c StopProgram.watchB } }

/-- The state with an append handed to the journal controller (R170). -/
def withAppend (s : State) (a : Append) : State := { s with journal := { s.journal with waiting := s.journal.waiting ++ [a] } }

/-- Apart from the line `t` is `u`, but for the F dropped counter where raw echo copies the frame (R11, R15). -/
def ButForEcho (t u : State) : Prop :=
  ∃ n, t.offLine =
      { u.offLine with line := { fcnt := { u.line.fcnt with dropped := n }, ccnt := u.line.ccnt } } ∧
    (u.store.settings.rawEcho = false → n = u.line.fcnt.dropped)

/-- A cab order of a channel has been answered with the ordered position (R122). -/
def cabAnswered (t : State) (c : Chan) (dst seq number : Byte) (reason : Option RefCode) : Prop :=
  placedC t (.answer
    { chan := c, dst := dst, seq := seq, position := (t.ch c).gate.position, number := number, reason := reason })

/-- The part after a loss of its working memory: the non-volatile part, the inputs, the model's own fields stay (R201,
R202). -/
def coldStart (s : State) : State :=
  { State.reset with nv := s.nv, pins := s.pins, free := s.free, pending := s.pending }

/-- Slots of the array that are all erased in usable blocks (R166). -/
def emptyArray (s : State) : Prop :=
  ∀ k ∈ s.nv.array, k.headerOk = true ∧ k.retired = none ∧ ∀ x ∈ k.slots, x = .erased

/-! ### Relations that every step keeps -/

/-- The alert line stands as R146 judges it. -/
def alertKept (s : State) : Prop := s.ctl.alert = alertRule s

/-- The standby delay timer runs exactly while its conditions hold together (R200). -/
def standbyKept (s : State) : Prop := s.power.standby.isSome = standbyReady s

/-- The valve orders of a channel in the F-bound queue. -/
def ordersQueued (s : State) (c : Chan) : List FFrame := s.line.fq.filter (isOrderOf c)

/-- Both queues keep to their places: 14 common and 2 reserved on port C, 6 common and one per channel on port F
(R13, R15). -/
structure PlacesKept (s : State) : Prop where
  common : commonUsed s.line ≤ 14
  reserved : reservedUsed s.line ≤ 2
  forwards : (s.line.fq.filter isForward).length ≤ 6
  orders : ∀ c, (ordersQueued s c).length ≤ 1

/-- One port's counters stand within 0 to 65535 (R20). -/
def countersWithin (k : Counters) : Prop :=
  k.check ≤ 65535 ∧ k.dropped ≤ 65535 ∧ k.stray ≤ 65535 ∧ k.unknown ≤ 65535 ∧ k.valveOrders ≤ 65535

/-- All ten line counters stand within 0 to 65535 (R20). -/
def countersKept (s : State) : Prop := countersWithin s.line.fcnt ∧ countersWithin s.line.ccnt

/-- The array has 64 blocks of 16 slots (R166). -/
def arrayKept (s : State) : Prop := s.nv.array.length = 64 ∧ ∀ k ∈ s.nv.array, k.slots.length = 16

/-! ### The commands that are requests -/

/-- The source, the header sequence and the code of a command that is a REQUEST frame of the list of 11.2. -/
def requestFrame : Instr → Option (Byte × Byte × Byte)
  | .openTicket src seq _ _ _ => some (src, seq, 0x10)
  | .closeTicket src seq _ => some (src, seq, 0x11)
  | .clearHold src seq _ => some (src, seq, 0x12)
  | .retryClose src seq _ => some (src, seq, 0x13)
  | .reprint src seq _ => some (src, seq, 0x14)
  | .readPending src seq _ => some (src, seq, 0x15)
  | .openRoute src seq => some (src, seq, 0x20)
  | .closeRoute src seq => some (src, seq, 0x21)
  | .nextDrop src seq => some (src, seq, 0x22)
  | .readDrop src seq _ => some (src, seq, 0x23)
  | .skip src seq _ => some (src, seq, 0x24)
  | .restore src seq _ => some (src, seq, 0x25)
  | .addDrop src seq _ => some (src, seq, 0x26)
  | .cancelDrop src seq _ => some (src, seq, 0x27)
  | .readTotals src seq => some (src, seq, 0x28)
  | .beginLoad src seq _ _ => some (src, seq, 0x30)
  | .loadPiece src seq _ _ _ => some (src, seq, 0x31)
  | .activate src seq => some (src, seq, 0x32)
  | .abandon src seq => some (src, seq, 0x33)
  | .writeSetting src seq _ _ => some (src, seq, 0x34)
  | .readRecord src seq _ => some (src, seq, 0x40)
  | .releaseThrough src seq _ => some (src, seq, 0x41)
  | .readHealth src seq _ => some (src, seq, 0x42)
  | .loadCompartment src seq _ _ _ => some (src, seq, 0x48)
  | .writeMetrologySetting src seq _ _ => some (src, seq, 0x50)
  | .openProving src seq _ _ => some (src, seq, 0x51)
  | .provingResult src seq _ _ => some (src, seq, 0x52)
  | .applyFactor src seq => some (src, seq, 0x53)
  | .clearLockout src seq => some (src, seq, 0x54)
  | .status src seq => some (src, seq, 0x60)
  | .setClock src seq _ => some (src, seq, 0x61)
  | .restart src seq => some (src, seq, 0x62)
  | .powerOn _ | .storeRead _ | .reconstruction _ _ | .startingResume _ | .startingPowerLoss _ | .supplyLow _
  | .supplyNormal _ | .brown _ | .ignitionOff | .ignitionOn | .standbyDelayExpiry | .metrologySwitchOpen
  | .metrologySwitchClose | .clockSecond | .malformedFrame _ _ | .tally _ _ _ _ _ _ | .probe _ _ _ _ _
  | .contact _ _ _ _ | .reelContact _ _ _ _ | .valveAnswer _ _ _ _ _ | .cabValveClosed _ _ _ _
  | .cabValveOpen _ _ _ _ _ | .throughFrame _ _ | .nonRequestToZero _ _ _ _ | .unknownStationRequest _ _ _
  | .unknownRequestCode _ _ _ | .fTransmitEnd | .cTransmitEnd | .silenceTimerExpiry _ | .probeStalenessExpiry _
  | .noticeTimerExpiry _ | .settleQuietExpiry _ | .settleLimitExpiry _ | .answerTimerExpiry _ | .arbiterTake
  | .recordProgramEnd _ _ _ | .drainedMarkEnd _ _ | .eraseStart | .eraseEnd _ _ | .storeWriteEnd _ _
  | .recordReadEnd _ => none

end Sys2Proof.Machine
end

