-- ==== Sys2Proof/Certificates/Slice0/Obligations.lean ====
section
/-! DEFINITION. The statements for the provers. A command that is a request is told for a station that is admitted: it has
an entry whose class suffices, no request in progress, and a place for its reply is free (R9, R15, R195, R196). What a
command leaves alone is told as an equality of the states apart from what sending frames changes (`State.offLine`). -/
section
open Sys2Proof Sys2Proof.Machine

/-! ### Steps -/

/-- A step takes the command at the front of the queue and runs it on the state with the queue's rest. -/
def Obligations.StepRunsTheFrontCommand : Prop :=
  ∀ (i : Instr) (rest : List Instr) (s : State),
    step { s with pending := i :: rest } = exec i { s with pending := rest }

/-- On an empty queue one millisecond passes: the rest timers of held contexts go on, and nothing else changes. The
model's choice, notes/assumptions/2.md; R142 gives the rest timer. -/
def Obligations.EmptyQueueAdvancesRestTimersOnly : Prop :=
  ∀ s : State, s.pending = [] →
    step s = .next { s with
      chA := { s.chA with ctx := { s.chA.ctx with rest := s.chA.ctx.rest.map (· + 1) } }
      chB := { s.chB with ctx := { s.chB.ctx with rest := s.chB.ctx.rest.map (· + 1) } } }

/-- No command stops the part: every command, in every state, ends in a next state. -/
def Obligations.EveryCommandCompletes : Prop := ∀ (i : Instr) (s : State), ∃ t, exec i s = .next t

/-! ### Taking requests (R9, R195, R196, R203) -/

/-- R9, row 2: any REQUEST frame, of whatever request or payload, from a source without a station entry is dropped and
adds one to the unknown-station counter of port C, which stops at 65535. It is not taken, no reply to it is placed or
waits, and it is not forwarded: the line is as it was but for that counter, and so are the requests in progress. R22, R200:
in STANDBY such a frame wakes the part, and is then handled in the same way. -/
def Obligations.UnknownStationRequestDroppedAndCounted : Prop :=
  ∀ (i : Instr) (s : State) (st q : Byte),
    (∃ c, requestFrame i = some (st, q, c)) ∨ (∃ payload, i = .unknownStationRequest st q payload) →
    addressOk st = true → stationClass s st = none →
    let counted : Counters := { s.line.ccnt with unknown := min 65535 (s.line.ccnt.unknown + 1) }
    (s.power.state = .on ∨ s.power.state = .starting →
      ∃ t, exec i s = .next t ∧ t.line = { s.line with ccnt := counted } ∧ t.req = s.req ∧
        t.offLine = { s.offLine with line := { fcnt := s.line.fcnt, ccnt := counted } }) ∧
    (s.power.state = .standby → s.line.cwait = [] →
      ∃ t, exec i s = .next t ∧ t.power.state = .on ∧ t.req = s.req ∧ t.line.ccnt = counted ∧
        t.line.fcnt = s.line.fcnt ∧ t.line.cwait = [] ∧ ∀ f : CFrame, placedC t f → placedC s f)

/-- R195, step 1: a request from a station that has one in progress is refused BUSY and not taken; the one in progress
goes on, and nothing else changes apart from the line. -/
def Obligations.BusyStationRefusedWithoutBeingTaken : Prop :=
  ∀ (i : Instr) (s : State) (st q c : Byte) (k : Cls) (p : InProgress),
    requestFrame i = some (st, q, c) → s.power.state = .on ∨ s.power.state = .starting → addressOk st = true →
    stationClass s st = some k → p ∈ s.req.inProgress → p.station = st →
    (∀ r : Reply, .reply r ∈ s.line.cwait → r.dst ≠ st) → AnswerRoom s →
    ∃ t, exec i s = .next t ∧ replied t st q c (some .busy) .nothing ∧ p ∈ t.req.inProgress ∧ t.offLine = s.offLine

/-- R195, step 3: while the part is STARTING every request but STATUS is refused BUSY, and its request has ended.
R203: from the acceptance of a RESTART until the restart, every request from any station is refused BUSY; that it is so
ahead of the judgement of the request's code and class is the model's choice, notes/assumptions/40.md. -/
def Obligations.RequestsBusyInStartingAndAfterRestart : Prop :=
  (∀ (i : Instr) (s : State) (st q c : Byte) (k : Cls),
     requestFrame i = some (st, q, c) → c ≠ 0x60 → s.power.state = .starting → addressOk st = true →
     stationClass s st = some k → (∀ p ∈ s.req.inProgress, p.station ≠ st) → AnswerRoom s →
     ∃ t, exec i s = .next t ∧ Answered t st q c (some .busy) .nothing ∧ t.offLine = s.offLine) ∧
  (∀ (i : Instr) (s : State) (st q c : Byte) (k : Cls) (sent : Bool),
     requestFrame i = some (st, q, c) → s.power.state = .on → addressOk st = true → stationClass s st = some k →
     (∀ p ∈ s.req.inProgress, p.station ≠ st) → s.req.restart = some sent → AnswerRoom s →
     ∃ t, exec i s = .next t ∧ Answered t st q c (some .busy) .nothing ∧ t.offLine = s.offLine)

/-- R195, step 5, and R196: a request whose class is above the class its station acts in is refused CLASS and changes
nothing apart from the line. R195, step 4: a request code that is not in the request list is refused ARGUMENT,
whatever the station's class. R151: in lockout each request that would open, close, clear or append, or change a table or
a setting, is refused LOCKOUT and changes nothing, whatever its other arguments; OPEN PROVING so where no activation bars
its channel (R34), OPEN TICKET and RESTART as their own statements tell. -/
def Obligations.RequestsJudgedByCodeAndClass : Prop :=
  (∀ (i : Instr) (s : State) (st q c : Byte) (k need : Cls),
     requestFrame i = some (st, q, c) → Ready s st k → AnswerRoom s → requiredClass c = some need →
     clsRank (actingClass s k) < clsRank need →
     ∃ t, exec i s = .next t ∧ Answered t st q c (some .cls) .nothing ∧ t.offLine = s.offLine) ∧
  (∀ (s : State) (st q c : Byte) (k : Cls),
     Ready s st k → AnswerRoom s → requiredClass c = none →
     ∃ t, exec (.unknownRequestCode st q c) s = .next t ∧ Answered t st q c (some .argument) .nothing ∧
       t.offLine = s.offLine) ∧
  (∀ (s : State) (st q : Byte) (k need : Cls) (c : Chan) (n m v : Nat) (z : Int) (kind : Option TableKind)
     (es : List Entry) (ragged : Bool) (x : Option Setting) (y : Option MetSetting) (d : Option Chan) (form : AddForm),
     Admitted s st k need → s.ctl.lockout ≠ .none →
     let turnedAway (i : Instr) : Prop := ∀ code, requestFrame i = some (st, q, code) → requiredClass code = some need →
       ∃ t, exec i s = .next t ∧ Answered t st q code (some .lockout) .nothing ∧ t.offLine = s.offLine
     (∀ i ∈ [Instr.closeTicket st q (some c), .clearHold st q (some c), .retryClose st q (some c), .reprint st q n,
          .openRoute st q, .closeRoute st q, .skip st q n, .restore st q n, .addDrop st q form, .cancelDrop st q n,
          .loadCompartment st q n m v, .beginLoad st q kind n, .loadPiece st q n es ragged, .activate st q,
          .writeSetting st q x z, .releaseThrough st q n, .writeMetrologySetting st q y z, .provingResult st q d n,
          .applyFactor st q], turnedAway i) ∧
     (barred s c = false → turnedAway (.openProving st q (some c) n)))

/-! ### Requests that read (R79, R80, R112, R163, R181, R197) -/

/-- R197: STATUS carries the power state, the lockout, the contexts' states and modes, the switch, the supply level,
the ignition, the route id or 0, free slots, the undrained count and the clock, and changes nothing; in STARTING it is
served too, and its route id, free slots and undrained count read 0 until reconstruction has run; that it then shows
BROWN where BROWN is latched, which R197 does not name, is the model's choice, notes/assumptions/48.md. R163: READ TOTALS
carries the route id or 0, the totals of the eight products and the compartments with their available volume; it is
served in every route state and in lockout, and changes nothing. -/
def Obligations.StatusAndTotalsReport : Prop :=
  let routeId (s : State) : Nat := if s.route.state = .none then 0 else (s.route.header.map RouteHeader.id).getD 0
  let figures (s : State) (starting : Bool) : StatusInfo :=
    { starting := starting, lockout := s.ctl.lockout
      stateA := s.chA.ctx.state, modeA := s.chA.ctx.mode, stateB := s.chB.ctx.state, modeB := s.chB.ctx.mode
      switchOpen := s.pins.switchOpen, level := s.power.level, ignitionOn := s.pins.ignitionOn
      routeId := routeId s, free := freeSlots s, undrained := (undrained s.journal).length
      clock := s.power.clock, unset := s.power.unset }
  (∀ (s : State) (st q : Byte) (k : Cls), Admitted s st k .driver →
     ∃ t, exec (.status st q) s = .next t ∧ t.offLine = s.offLine ∧
       Answered t st q 0x60 none (.status (figures s false))) ∧
  (∀ (s : State) (st q : Byte) (k : Cls), s.power.state = .starting → addressOk st = true → stationClass s st = some k →
     (∀ p ∈ s.req.inProgress, p.station ≠ st) → s.req.restart = none → AnswerRoom s →
     (∃ t, exec (.status st q) s = .next t ∧ t.offLine = s.offLine ∧
       Answered t st q 0x60 none (.status (figures s true))) ∧
     (s.route = {} → s.journal = {} →
       (figures s true).routeId = 0 ∧ (figures s true).free = 0 ∧ (figures s true).undrained = 0)) ∧
  (∀ (s : State) (st q : Byte) (k : Cls), Admitted s st k .driver →
     ∃ t, exec (.readTotals st q) s = .next t ∧ t.offLine = s.offLine ∧
       Answered t st q 0x28 none (.totals (routeId s) s.comps.totals (s.comps.list.map fun c =>
         { comp := c, available := if c.loadMark then 0 else c.base - c.delivered - c.reserved })))

/-- R112: READ PENDING is refused ARGUMENT for a channel other than A or B; in CLOSING and FAULTED it carries the state,
the close origin and the pending record, of a ticket or of a proving run, and nothing else; in every other state it is
refused NOT-FOUND. It is served in lockout and changes nothing. -/
def Obligations.ReadPendingShowsThePendingRecord : Prop :=
  requiredClass 0x15 = some .driver ∧
  ∀ (s : State) (st q : Byte) (k : Cls), Admitted s st k .driver →
    (∃ t, exec (.readPending st q none) s = .next t ∧ Answered t st q 0x15 (some .argument) .nothing ∧
      t.offLine = s.offLine) ∧
    (∀ c : Chan, (s.ch c).ctx.state = .closing ∨ (s.ch c).ctx.state = .faulted →
      let shown (r : PendingRecord) : Prop :=
        ∃ t, exec (.readPending st q (some c)) s = .next t ∧ t.offLine = s.offLine ∧
          Answered t st q 0x15 none (.pendingRecord (s.ch c).ctx.state (s.ch c).ctx.origin r)
      (∀ x, (s.ch c).ctx.pending = some (.ticket x) → shown (.ticket x)) ∧
      (∀ x sound, (s.ch c).ctx.pending = some (.proving x sound) → shown (.proving x))) ∧
    (∀ c : Chan, (s.ch c).ctx.state ≠ .closing → (s.ch c).ctx.state ≠ .faulted →
      ∃ t, exec (.readPending st q (some c)) s = .next t ∧ Answered t st q 0x15 (some .notFound) .nothing ∧
        t.offLine = s.offLine)

/-- R79: NEXT DROP returns the first entry in route order that is PLANNED or PARTIAL, unclaimed and with its note mark
clear, or NOT-FOUND where none qualifies or the route state is NONE. R80: READ DROP returns the entry of a number, or
NOT-FOUND. Both are served in lockout and change nothing. -/
def Obligations.DropQueriesAnswerFromTheTable : Prop :=
  ∀ (s : State) (st q : Byte) (k : Cls), Admitted s st k .driver →
    (∀ (before after : List Drop) (d : Drop), s.route.state ≠ .none → s.route.drops = before ++ d :: after →
      (d.state = .planned ∨ d.state = .partly) → d.claimant = none → d.noteMark = false →
      (∀ e ∈ before, ¬ ((e.state = .planned ∨ e.state = .partly) ∧ e.claimant = none ∧ e.noteMark = false)) →
      ∃ t, exec (.nextDrop st q) s = .next t ∧ Answered t st q 0x22 none (.dropEntry d) ∧ t.offLine = s.offLine) ∧
    ((s.route.state = .none ∨
        ∀ e ∈ s.route.drops, ¬ ((e.state = .planned ∨ e.state = .partly) ∧ e.claimant = none ∧ e.noteMark = false)) →
      ∃ t, exec (.nextDrop st q) s = .next t ∧ Answered t st q 0x22 (some .notFound) .nothing ∧
        t.offLine = s.offLine) ∧
    (∀ (before after : List Drop) (d : Drop), s.route.state ≠ .none → s.route.drops = before ++ d :: after →
      (∀ e ∈ before, e.plan.number ≠ d.plan.number) →
      ∃ t, exec (.readDrop st q d.plan.number) s = .next t ∧ Answered t st q 0x23 none (.dropEntry d) ∧
        t.offLine = s.offLine) ∧
    (∀ n : Nat, (s.route.state = .none ∨ ∀ e ∈ s.route.drops, e.plan.number ≠ n) →
      ∃ t, exec (.readDrop st q n) s = .next t ∧ Answered t st q 0x23 (some .notFound) .nothing ∧
        t.offLine = s.offLine)

/-- R181: READ HEALTH serves pages 1 to 5 and refuses any other number NOT-FOUND; reading changes nothing. The five pages
are told whole: JOURNAL with the free slots (R175), the undrained count and the drain cursor (R180) and the other figures,
WEAR over the usable blocks (with none usable its figures are free, notes/assumptions/33.md), RETIREMENT, LINE, CHANNEL. -/
def Obligations.ReadHealthServesItsPages : Prop :=
  ∀ (s : State) (st q : Byte) (k : Cls), Admitted s st k .office →
    (∀ page, 1 ≤ page → page ≤ 5 → ∃ t x, exec (.readHealth st q page) s = .next t ∧
      Answered t st q 0x42 none x ∧ t.offLine = s.offLine) ∧
    (∀ page, (page = 0 ∨ 5 < page) → ∃ t, exec (.readHealth st q page) s = .next t ∧
      Answered t st q 0x42 (some .notFound) .nothing ∧ t.offLine = s.offLine) ∧
    (let j := s.journal
     let owed := j.index.filter fun e => decide (e.drained = false ∧ e.seq ∉ j.memDrains)
     let usable := j.blocks.filter fun b => decide (b.state ≠ .retired)
     let worn := usable.map BlockInfo.erases
     (∃ t, exec (.readHealth st q 1) s = .next t ∧ Answered t st q 0x42 none (.journalPage
        { free := (j.blocks.map fun b => match b.state with | .erased => 16 | .current => 16 - b.writePoint | _ => 0).sum
          undrained := owed.length, newest := j.newestSeq, oldest := (j.index.head?.map IndexEntry.seq).getD 0
          cursor := (owed.head?.map IndexEntry.seq).getD (j.newestSeq + 1), usable := usable.length
          current := j.blocks.findIdx? fun b => decide (b.state = .current), unreadable := j.unreadable
          unreadableReads := j.unreadableReads, firstNeeded := j.firstNeeded })) ∧
     (∃ t x y, exec (.readHealth st q 2) s = .next t ∧ Answered t st q 0x42 none (.wearPage x y) ∧
        (worn ≠ [] → x = worn.sum / worn.length ∧ y ∈ worn ∧ ∀ n ∈ worn, n ≤ y))) ∧
    (∃ t, exec (.readHealth st q 3) s = .next t ∧ Answered t st q 0x42 none
      (.retirementPage (s.journal.blocks.filter fun b => b.state = .retired).length s.journal.lastRetired
        s.journal.lostTotal)) ∧
    (∃ t, exec (.readHealth st q 4) s = .next t ∧ Answered t st q 0x42 none (.linePage s.line.fcnt s.line.ccnt)) ∧
    (∃ t, exec (.readHealth st q 5) s = .next t ∧ Answered t st q 0x42 none (.channelPage
      { totalizer := s.chA.meter.totalizer, unticketed := s.chA.meter.unticketed, gaps := s.chA.meter.gapsSinceStart
        retries := s.chA.gate.retries }
      { totalizer := s.chB.meter.totalizer, unticketed := s.chB.meter.unticketed, gaps := s.chB.meter.gapsSinceStart
        retries := s.chB.gate.retries }))

/-! ### The clock (R198) -/

/-- R198: SET CLOCK sets the clock at once, clears the UNSET mark and answers the previous value and mark; an argument
of the wrong length, or out of range, is refused ARGUMENT. CLOCK_SECOND counts one in every power state but OFF, in
SHUTDOWN as long as something still keeps the part from going OFF, and stops at 4294967295; in OFF nothing counts. -/
def Obligations.ClockIsSetAndCounts : Prop :=
  (∀ (s : State) (st q : Byte) (k : Cls), Admitted s st k .office →
    (∀ n : Nat, n ≤ 4294967295 → ∃ t, exec (.setClock st q (some n)) s = .next t ∧
      Answered t st q 0x61 none (.clock s.power.clock s.power.unset) ∧
      t.offLine = { s.offLine with power := { s.power with clock := n, unset := false, standby := none } }) ∧
    (∀ v : Option Nat, (∀ n, v = some n → 4294967295 < n) → ∃ t, exec (.setClock st q v) s = .next t ∧
      Answered t st q 0x61 (some .argument) .nothing ∧ t.offLine = s.offLine)) ∧
  (∀ s : State, s.power.state ≠ .off →
    (s.power.state = .shutdown → s.journal.waiting ≠ [] ∨ s.journal.busy ≠ .idle ∨ s.store.tableWrite ≠ none ∨
      s.store.settingsWrites ≠ []) →
    ∃ t, exec .clockSecond s = .next t ∧
      t.offLine = { s.offLine with
        power := { s.power with clock := min 4294967295 (s.power.clock + 1), standby := none } }) ∧
  (∀ s : State, s.power.state = .off → ∃ t, exec .clockSecond s = .next t ∧ t.offLine = s.offLine)

/-! ### Power, start-up, standby, the switch -/

/-- R202: in OFF a voltage of 9.5 V or more begins STARTING with every block at its power-on values and the supply
classed against the 12 V levels with LOW step 2; a lower one changes nothing but the input. In STARTING a voltage
below 9.0 V ends in OFF, working memory lost; so does the BROWN level once reconstruction is under way, while before it
BROWN is latched and STARTING stays. With BROWN latched before reconstruction, the BROWN level plus hysteresis lets
STARTING go on. The level before the first classing and the classing from LOW at the resumption are the model's,
notes/assumptions/7.md and 8.md, and so is that the voltage need not have been lower before, notes/assumptions/65.md. -/
def Obligations.StartingBeginsEndsAndResumes : Prop :=
  (∀ (s : State) (mv : Nat), s.power.state = .off →
    (9500 ≤ mv → exec (.powerOn mv) s = .next
      { coldStart s with
        pins := { s.pins with voltage := mv }
        power := { state := .starting, level := if mv < 11500 then .low else .normal } }) ∧
    (mv < 9500 → ∃ t, exec (.powerOn mv) s = .next t ∧
      t.offLine = { s.offLine with pins := { s.pins with voltage := mv } })) ∧
  (∀ (s : State) (mv : Nat), s.power.state = .starting → mv < 9000 →
    exec (.startingPowerLoss mv) s = .next { coldStart s with pins := { s.pins with voltage := mv } }) ∧
  (∀ (s : State) (mv : Nat), s.power.state = .starting → s.power.level ≠ .brown → 9000 ≤ mv →
    mv ≤ brownLevel s.store.settings →
    (s.power.phase = .reconstructing →
      exec (.brown mv) s = .next { coldStart s with pins := { s.pins with voltage := mv } }) ∧
    (s.power.phase ≠ .reconstructing → ∃ t, exec (.brown mv) s = .next t ∧ t.offLine = { s.offLine with
      pins := { s.pins with voltage := mv }, power := { s.power with level := .brown, standby := none } })) ∧
  (∀ (s : State) (mv : Nat), s.power.state = .starting → s.power.level = .brown → s.power.phase ≠ .reconstructing →
    9000 ≤ mv →
    (brownLevel s.store.settings + hysteresis s.store.settings ≤ mv → ∃ t, exec (.startingResume mv) s = .next t ∧
      t.offLine = { s.offLine with
        pins := { s.pins with voltage := mv }
        power := { s.power with
          level := if lowStep s.store.settings + hysteresis s.store.settings ≤ mv then .normal else .low
          phase := if s.power.phase = .heldBrown then .reconstructing else s.power.phase
          standby := none } }) ∧
    (mv < brownLevel s.store.settings + hysteresis s.store.settings → ∃ t, exec (.startingResume mv) s = .next t ∧
      t.offLine = { s.offLine with pins := { s.pins with voltage := mv } }))

/-- R38: the read of the store leaves each region that fails its check failing and takes up every other: settings and
metrology settings, or their defaults; stop programs, or the factory's; curves, stations and route as stored, or EMPTY;
products whose curves are held; price lists that cover the products; a node map that shares no address with the
stations, the printer or the cab terminal. R202: the supply is classed against the stored levels, and reconstruction
begins unless that is BROWN. The rest of the part is as it was. That a region once failing goes on failing is the
model's choice, notes/assumptions/42.md. -/
def Obligations.StoreReadTakesUpTheRegions : Prop :=
  ∀ (s : State) (failing : List Region), s.power.state = .starting → s.power.phase = .reading →
    let read {α : Type} (r : Region) (x : Option α) : Option α := if r ∈ failing then none else x
    let old := s.nv.regions
    let g : Regions :=
      { settings := read .settings old.settings, products := read (.table .product) old.products
        prices := read (.table .price) old.prices, curves := read (.table .correction) old.curves
        programs := read (.table .stopProgram) old.programs, nodes := read (.table .nodeMap) old.nodes
        stations := read (.table .station) old.stations, route := read (.table .route) old.route }
    ∃ t, exec (.storeRead failing) s = .next t ∧ t.nv = { s.nv with regions := g } ∧
      (∀ x y, g.settings = some (x, y) → t.store.settings = x ∧ t.store.metset = y) ∧
      (g.settings = none → t.store.settings = {} ∧ t.store.metset = {}) ∧
      t.store.curves = g.curves ∧ t.store.stations = g.stations ∧ t.store.routeRegion = g.route ∧
      (g.programs = none → t.store.programs = factoryPrograms) ∧
      (∀ l, g.programs = some l → t.store.programs = (List.range 8).map fun n =>
        match l.find? fun e => e.number = n with
        | some e => some e.program
        | none => if n = 0 then some factoryProgram0 else if n = 1 then some factoryProgram1 else none) ∧
      (g.products = none → t.store.products = none) ∧
      (∀ l, g.products = some l → t.store.products =
        if ∀ e ∈ l, ∃ k ∈ entriesOf g.curves, k.number = e.curve then some l else none) ∧
      (g.prices = none → t.store.prices = none) ∧
      (∀ l, g.prices = some l → t.store.prices =
        if ∀ e ∈ entriesOf t.store.products, ∃ p ∈ l, p.code = e.code then some l else none) ∧
      (g.nodes = none → t.store.nodes = none) ∧
      (∀ l, g.nodes = some l → t.store.nodes =
        if ∀ n ∈ l, (∀ e ∈ entriesOf g.stations, e.address ≠ n.address) ∧ t.store.settings.printer ≠ n.address ∧
            t.store.settings.cab ≠ n.address
        then some l else none) ∧
      t.store.staging = s.store.staging ∧ t.store.tableWrite = s.store.tableWrite ∧
      t.store.settingsWrites = s.store.settingsWrites ∧
      t.offLine = { s.offLine with
        store := t.store, nv := t.nv
        power := { s.power with
          level := classLevel t.store.settings s.power.level s.pins.voltage
          phase := if classLevel t.store.settings s.power.level s.pins.voltage = .brown then .heldBrown
            else .reconstructing
          standby := none } }

/-- R182, R184, R202: over an array of erased slots reconstruction ends STARTING in ON with an empty index, no record
numbered, every block ERASED at its erase count, and a CLOSED order for each channel with a VALVE node. A slot that
reads UNREADABLE there may hold the newest record, so it is needed, and the part comes ON in a RECONSTRUCTION lockout
(R183). Over a block with a LOAD, a ROUTE OPEN, a SKIP note and a TICKET record: the index and the numbers follow them
(R182); the stored route is taken up and the note and the ticket are applied to its drops (R83, R84); the compartment takes
its load and the ticket's net, and the totals the ticket (R164); the counters and totalizers come from the newest header
(R184). A ROUTE region that does not match, a record that fails a test of the replay, or a ticket of another product than
its compartment's ends in a RECONSTRUCTION lockout, each table kept as far as it was rebuilt. -/
def Obligations.ReconstructionOfAnEmptyArray : Prop :=
  (∀ s : State, s.power.state = .starting → s.power.phase = .reconstructing → emptyArray s →
    (∃ t, exec (.reconstruction [] []) s = .next t ∧ t.power.state = .on ∧ t.ctl.lockout = s.ctl.lockout ∧
      t.journal.index = [] ∧ t.journal.newestSeq = 0 ∧ t.journal.newestTicket = 0 ∧
      t.journal.blocks = s.nv.array.map (fun k => { state := .erased, erases := k.erases, writePoint := 0 }) ∧
      t.nv = s.nv ∧ t.route = s.route ∧ t.comps = s.comps ∧ t.store = s.store ∧ t.met = s.met ∧
      ∀ c, (t.ch c).gate = (ordered s c .closed (s.ch c)).gate) ∧
    (∀ b slot : Nat, b < s.nv.array.length → (∀ k ∈ s.nv.array, slot < k.slots.length) →
      ∃ t, exec (.reconstruction [(b, slot)] []) s = .next t ∧ t.power.state = .on ∧
        t.ctl.lockout = .reconstruction ∧ t.journal.firstNeeded = some (1, b, slot))) ∧
  (∀ (s : State) (rest : List Block) (erases : Nat) (l o k w : Record) (ml mo mk mw : Bool) (b : LoadBody)
    (id count n : Nat) (unplanned : Bool) (ceiling : Option Nat) (note : NoteBody) (x : TicketBody),
    s.power.state = .starting → s.power.phase = .reconstructing → s.route = {} → s.comps = {} →
    s.nv.array = { erases := erases, slots := [.written l ml, .written o mo, .written k mk, .written w mw] ++
      List.replicate 12 .erased } :: rest →
    (∀ y ∈ rest, y.headerOk = true ∧ y.retired = none ∧ ∀ z ∈ y.slots, z = .erased) →
    l.seq < o.seq → o.seq < k.seq → k.seq < w.seq → l.body = .load b → o.body = .routeOpen id count unplanned ceiling →
    k.body = .dropNote note → note.op = .skip → w.body = .ticket n x → x.comp = b.comp → 1 ≤ b.comp → b.comp ≤ 4 →
    ∃ t, exec (.reconstruction [] []) s = .next t ∧ t.power.state = .on ∧ t.nv = s.nv ∧ t.store = s.store ∧
      t.journal.newestSeq = w.seq ∧ t.journal.newestTicket = w.ticketHigh ∧
      t.journal.index = [{ seq := l.seq, kind := .load, block := 0, slot := 0, drained := ml },
        { seq := o.seq, kind := .routeOpen, block := 0, slot := 1, drained := mo },
        { seq := k.seq, kind := .dropNote, block := 0, slot := 2, drained := mk },
        { seq := w.seq, kind := .ticket, block := 0, slot := 3, drained := mw }] ∧
      t.journal.blocks = { state := .current, erases := erases, writePoint := 4 } ::
        rest.map (fun y => { state := .erased, erases := y.erases, writePoint := 0 }) ∧
      ((∀ h ds, s.store.routeRegion = some (h, ds) → h.id ≠ id ∨ h.count ≠ count) →
        t.ctl.lockout = .reconstruction ∧ t.route = {} ∧ t.comps = {} ∧ t.met = s.met) ∧
      (∀ (h : RouteHeader) (ds : List StagedDrop), s.store.routeRegion = some (h, ds) → h.id = id → h.count = count →
        let named (m : Nat) : Prop := ∃ d ∈ ds, d.number = m
        let taken := routeDrops 1 ds
        let skipped := taken.map fun d => if d.plan.number = note.drop then { d with state := .skipped } else d
        let served := skipped.map fun d =>
          if d.plan.number = x.drop then
            { d with delivered := d.delivered + x.net, amount := d.amount + x.due, tickets := d.tickets ++ [n]
                     state := dropAfter d.state x.status, claimant := none }
          else d
        let table (ds : List Drop) : Route := { state := .opened, header := some h, drops := ds }
        let loaded (m : Nat) : List Comp :=
          (List.replicate 4 {}).set (b.comp - 1) { product := b.product, base := b.base, delivered := m }
        (note.routeId ≠ id ∨ ¬ named note.drop →
          t.ctl.lockout = .reconstruction ∧ t.route = table taken ∧ t.comps = {}) ∧
        (note.routeId = id → named note.drop →
          (x.routeId ≠ id ∨ ¬ named x.drop →
            t.ctl.lockout = .reconstruction ∧ t.route = table skipped ∧ t.comps = {}) ∧
          (x.routeId = id → named x.drop →
            t.route = table served ∧ t.journal.routeAnchor = some o.seq ∧
            (x.product ≠ b.product →
              t.ctl.lockout = .reconstruction ∧ t.comps.list = loaded 0 ∧ t.met = s.met) ∧
            (x.product = b.product →
              t.ctl.lockout = s.ctl.lockout ∧ t.comps.list = loaded (within 4294967295 x.net) ∧
              t.comps.totals = (List.replicate 8 {}).modify (x.product - 1)
                (fun _ => { net := within 4294967295 x.net, count := 1 }) ∧
              t.journal.compAnchors = (List.replicate 4 none).set (b.comp - 1) (some l.seq) ∧
              t.met = { s.met with cal := w.cal, cfg := w.cfg } ∧ t.chA.meter.totalizer = w.totA ∧
              t.chB.meter.totalizer = w.totB)))))

/-- R138, R199: at the crossing below the LOW step the level becomes LOW and SUPPLY is handed to both contexts; at the
LOW step plus hysteresis it becomes NORMAL, and no cause is removed. The levels of both supply systems (R39). -/
def Obligations.SupplyCrossesLowAndNormal : Prop :=
  (∀ (s : State) (mv : Nat), s.power.state = .on ∨ s.power.state = .standby →
    (s.power.level = .normal → brownLevel s.store.settings < mv → mv < lowStep s.store.settings →
      ∃ t, exec (.supplyLow mv) s = .next t ∧ t.offLine = { s.offLine with
        pins := { s.pins with voltage := mv }
        power := { s.power with level := .low, standby := none }
        chA := (handed s .a [.supply] 0).offLine
        chB := (handed s .b [.supply] 0).offLine }) ∧
    (s.power.level = .low → brownLevel s.store.settings < mv →
      lowStep s.store.settings + hysteresis s.store.settings ≤ mv →
      ∃ t, exec (.supplyNormal mv) s = .next t ∧ t.offLine = { s.offLine with
        pins := { s.pins with voltage := mv }, power := { s.power with level := .normal, standby := none } })) ∧
  (∀ x : Settings, brownLevel { x with system := .v12 } = 9000 ∧ hysteresis { x with system := .v12 } = 500 ∧
    brownLevel { x with system := .v24 } = 18000 ∧ hysteresis { x with system := .v24 } = 1000 ∧
    lowStep { x with system := .v12 } = 10500 + 500 * x.lowStep ∧
    lowStep { x with system := .v24 } = 21000 + 1000 * x.lowStep)

/-- R115, R201: at the BROWN level SHUTDOWN begins. No request is in progress, no restart is awaited, management
appends, reads, the release, a CLEAR LOCKOUT and the erase are given up, forwarded frames are discarded, both gates
stand ordered CLOSED, a ticket ARMED without pulses is cancelled, and every other open context is CLOSING with origin
SHUTDOWN and its record handed. With nothing to close and nothing being written the part goes OFF. What SHUTDOWN
discards is the model's reading, notes/assumptions/28.md. -/
def Obligations.BrownShutsThePartDown : Prop :=
  ∀ (s : State) (mv : Nat), s.power.state = .on ∨ s.power.state = .standby → s.power.level ≠ .brown →
    mv ≤ brownLevel s.store.settings →
    ((∃ c, metering (s.ch c).ctx.state = true ∧ ((s.ch c).ctx.state = .armed → counted (s.ch c).meter = true)) →
      ∃ t, exec (.brown mv) s = .next t ∧ t.power.state = .shutdown ∧ t.power.level = .brown ∧ t.power.budget = 3 ∧
        t.req.inProgress = [] ∧ t.req.restart = none ∧ t.journal.erasing = none ∧ t.journal.release = none ∧
        t.journal.reads = [] ∧ t.ctl.clearing = none ∧ (∀ f, .fwd f ∉ t.line.fq) ∧
        (∀ st b, .manage st b ∉ t.journal.waiting) ∧ (∀ n, .mark n ∉ t.journal.waiting) ∧
        ∀ c, ((nodeOf s c .valve).isSome → (t.ch c).gate.position = .closed) ∧
          (metering (s.ch c).ctx.state = true → ((s.ch c).ctx.state = .armed → counted (s.ch c).meter = true) →
            (t.ch c).ctx.state = .closing ∧ (t.ch c).ctx.origin = .shutdown ∧ (t.ch c).ctx.pending.isSome ∧
              .close c ∈ t.journal.waiting) ∧
          ((s.ch c).ctx.state = .armed → counted (s.ch c).meter = false → (t.ch c).ctx.state = .idle)) ∧
    (s.chA.ctx.state = .idle → s.chB.ctx.state = .idle → s.journal.waiting = [] → s.journal.busy = .idle →
      s.journal.erasing = none → s.store.tableWrite = none → s.store.settingsWrites = [] →
      exec (.brown mv) s = .next { coldStart s with pins := { s.pins with voltage := mv } })

/-- R200, R136: the ignition's change to OFF lets the standby delay timer run, from its setting, when nothing else is
going on; its expiry puts the part in STANDBY, the answer timers stopped; the ignition's change to ON wakes it, and
each gate sends its SENT order again under its number. Outside STANDBY the ignition changes nothing else; an expiry of
the stopped timer changes nothing (the model's choice, notes/assumptions/1.md). -/
def Obligations.IgnitionAndStandby : Prop :=
  (∀ s : State, s.power.state ≠ .shutdown →
    ∃ t, exec .ignitionOff s = .next t ∧
      t.offLine = { s.offLine with pins := { s.pins with ignitionOn := false } } ∧
      (standbyReady { s with pins := { s.pins with ignitionOn := false } } = true →
        t.power.standby = some (s.power.standby.getD s.store.settings.standbyDelay))) ∧
  (∀ s : State, s.power.state ≠ .shutdown →
    (s.power.standby.isSome → ∃ t, exec .standbyDelayExpiry s = .next t ∧ t.offLine = { s.offLine with
      power := { s.power with state := .standby, standby := none }
      chA := { s.chA.offLine with gate := { s.chA.gate with timer := false } }
      chB := { s.chB.offLine with gate := { s.chB.gate with timer := false } } }) ∧
    (s.power.standby = none → ∃ t, exec .standbyDelayExpiry s = .next t ∧ t.offLine = s.offLine)) ∧
  (∀ s : State, s.power.state ≠ .shutdown → s.power.state ≠ .standby →
    ∃ t, exec .ignitionOn s = .next t ∧
      t.offLine = { s.offLine with pins := { s.pins with ignitionOn := true } }) ∧
  (∀ s : State, s.power.state = .standby →
    ∃ t, exec .ignitionOn s = .next t ∧ t.power.state = .on ∧ t.pins.ignitionOn = true ∧
      ∀ (c : Chan) (o : Order) (n : NodeEntry), (s.ch c).gate.outstanding = some o → o.phase = .sent →
        nodeOf s c .valve = some n →
        (t.ch c).gate.outstanding = some { o with phase := .queued } ∧ (t.ch c).gate.timer = false ∧
        ∃ q, placedF t (.order c n.address q o.position o.number))

/-- R138, R186: at the change of the metrology switch from CLOSED to OPEN, METROLOGY is handed to both contexts; in
OFF no context is there. The change to CLOSED hands nothing; a switch that is OPEN already hands nothing (the model's
choice, notes/assumptions/1.md). -/
def Obligations.MetrologySwitchHandsMetrology : Prop :=
  ∀ s : State, s.power.state ≠ .shutdown →
    (s.pins.switchOpen = false → s.power.state ≠ .off → ∃ t, exec .metrologySwitchOpen s = .next t ∧
      t.offLine = { s.offLine with
        pins := { s.pins with switchOpen := true }
        chA := (handed s .a [.metrology] 0).offLine, chB := (handed s .b [.metrology] 0).offLine }) ∧
    (s.power.state = .off → ∃ t, exec .metrologySwitchOpen s = .next t ∧
      t.offLine = { s.offLine with pins := { s.pins with switchOpen := true } }) ∧
    (s.pins.switchOpen = true → ∃ t, exec .metrologySwitchOpen s = .next t ∧ t.offLine = s.offLine) ∧
    (∃ t, exec .metrologySwitchClose s = .next t ∧
      t.offLine = { s.offLine with pins := { s.pins with switchOpen := false } })

/-! ### Frames -/

/-- R2, R9, R20, R22: bytes that are no frame count as a check failure of their port, and so does a frame to 0 of
another kind than REQUEST; nothing else changes apart from the line. A frame to 0 wakes the part from STANDBY. R5: a frame
for a block that fails the form check of its kind is dropped and counted in the same way, neither handed on nor echoed: a
TALLY whose elapsed time is outside 1 to 5000, a code its kind does not define, a contact state of the other role, a
payload of another length, a REQUEST without a code. -/
def Obligations.CheckFailuresAreCounted : Prop :=
  let countedF (s t : State) : Prop := t.offLine = { s.offLine with
    line := { fcnt := { s.line.fcnt with check := min 65535 (s.line.fcnt.check + 1) }, ccnt := s.line.ccnt } }
  let countedC (s t : State) : Prop := t.offLine = { s.offLine with
    line := { fcnt := s.line.fcnt, ccnt := { s.line.ccnt with check := min 65535 (s.line.ccnt.check + 1) } } }
  (∀ (s : State) (bytes : List Byte), s.power.state = .on ∨ s.power.state = .starting → parseFrame bytes = none →
    (∃ t, exec (.malformedFrame .f bytes) s = .next t ∧ countedF s t) ∧
    (∃ t, exec (.malformedFrame .c bytes) s = .next t ∧ countedC s t)) ∧
  (∀ (s : State) (st k q : Byte) (payload : List Byte), addressOk st = true → k ≠ kindRequest → payload.length ≤ 255 →
    (s.power.state = .on ∨ s.power.state = .starting →
      ∃ t, exec (.nonRequestToZero st k q payload) s = .next t ∧ countedC s t) ∧
    (s.power.state = .standby →
      ∃ t, exec (.nonRequestToZero st k q payload) s = .next t ∧ t.power.state = .on ∧
        t.line.ccnt = { s.line.ccnt with check := min 65535 (s.line.ccnt.check + 1) })) ∧
  (∀ (s : State) (src q : Byte) (n : NodeEntry), s.power.state = .on ∨ s.power.state = .starting →
    addressOk src = true → nodeAt s src = some n →
    let failed (i : Instr) : Prop := ∃ t, exec i s = .next t ∧ countedF (hear src s) t ∧
      t.line.cq = s.line.cq ∧ t.line.cline = s.line.cline
    (n.role = .tally → ∀ f r e : Word16, e.toNat = 0 ∨ 5000 < e.toNat → failed (.tally 127 src q f r e)) ∧
    (n.role = .probe → ∀ (v : Word16) (st : Byte), st ≠ 0 → st ≠ 1 → failed (.probe 127 src q v st)) ∧
    (n.role = .vapour → ∀ v : Byte, v ≠ 0 → v ≠ 1 →
      failed (.contact 127 src q v) ∧ failed (.reelContact 127 src q v)) ∧
    (n.role = .reel → ∀ v : Byte, v ≠ 2 → v ≠ 3 →
      failed (.contact 127 src q v) ∧ failed (.reelContact 127 src q v)) ∧
    (n.role = .valve → ∀ p o : Byte, 2 < p.toNat → failed (.valveAnswer 0 src q p o)) ∧
    (∀ f : Frame, f.src = src → f.payload.length ≤ 255 →
      f.dst = 127 ∧ (n.role = .tally ∧ f.kind = 0x11 ∧ f.payload.length ≠ 6 ∨
        n.role = .probe ∧ f.kind = 0x12 ∧ f.payload.length ≠ 3 ∨
        (n.role = .vapour ∨ n.role = .reel) ∧ f.kind = 0x13 ∧ f.payload.length ≠ 1) ∨
      f.dst = 0 ∧ n.role = .valve ∧ f.kind = 0x22 ∧ f.payload.length ≠ 2 → failed (.throughFrame .f f))) ∧
  (∀ (s : State) (f : Frame), s.power.state = .on ∨ s.power.state = .starting → frameOk f = true →
    (∀ n : NodeEntry, f.dst ≠ 0 → f.kind = 0x21 → nodeAt s f.dst = some n → n.role = .valve →
      f.payload.length ≠ 2 ∨ (∃ p o : Byte, f.payload = [p, o] ∧ 2 < p.toNat) →
      ∃ t, exec (.throughFrame .c f) s = .next t ∧ countedC s t) ∧
    (f.dst = 0 → f.kind = 0x41 → f.payload = [] → (stationClass s f.src).isSome →
      ∃ t, exec (.throughFrame .c f) s = .next t ∧ countedC s t))

/-- R10, for the sensor broadcasts and for a VALVE ANSWER to 0: from a node that the map does not give the role, the
frame is dropped and adds one to the stray counter of port F; nothing is forwarded, echoed or handed, the line but for
that counter is as it was, and the source has been heard. -/
def Obligations.StrayFrameDroppedAndCounted : Prop :=
  ∀ (s : State) (n q : Byte) (i : Instr), s.power.state = .on ∨ s.power.state = .starting → addressOk n = true →
    (∃ f r e : Word16, i = .tally 127 n q f r e ∧ ∀ x, nodeAt s n = some x → x.role ≠ .tally) ∨
    (∃ (v : Word16) (st : Byte), i = .probe 127 n q v st ∧ ∀ x, nodeAt s n = some x → x.role ≠ .probe) ∨
    (∃ v : Byte, (i = .contact 127 n q v ∨ i = .reelContact 127 n q v) ∧
      ∀ x, nodeAt s n = some x → x.role ≠ .vapour ∧ x.role ≠ .reel) ∨
    (∃ p o : Byte, i = .valveAnswer 0 n q p o ∧ ∀ x, nodeAt s n = some x → x.role ≠ .valve) →
    ∃ t, exec i s = .next t ∧
      t.line = { s.line with fcnt := { s.line.fcnt with stray := min 65535 (s.line.fcnt.stray + 1) } } ∧
      t.offLine = { s.offLine with
        line := { fcnt := { s.line.fcnt with stray := min 65535 (s.line.fcnt.stray + 1) }, ccnt := s.line.ccnt }
        chA := { s.chA.offLine with silence := s.chA.silence.map fun x =>
          if x.node = n then { x with running := true, lapsed := false } else x }
        chB := { s.chB.offLine with silence := s.chB.silence.map fun x =>
          if x.node = n then { x with running := true, lapsed := false } else x } }

/-- R8, R9, R13, R15: a through frame finds a common place of the other port's queue, or is dropped and counted on the
port it arrived on. A VALVE ORDER to an address that is no VALVE node is dropped and counted, and nothing else of the
line or the requests changes (R9). R22, R200: in STANDBY a frame on port F, and one on port C that is not addressed to
0, is ignored. R11: with raw echo ON a consumed frame is copied to port C as it was received, byte for byte, where a
common place is free; where none is, on a channel that is IDLE and so sends nothing itself, the copy is dropped and
counted on port F. That the copy is placed ahead of a value notice is the model's choice, notes/assumptions/50.md. -/
def Obligations.ThroughFramesAreForwardedOrCounted : Prop :=
  (∀ (s : State) (f : Frame), s.power.state = .on ∨ s.power.state = .starting → frameOk f = true →
    (¬ (f.dst = 127 ∧ (f.kind = 0x11 ∨ f.kind = 0x12 ∨ f.kind = 0x13)) → ¬ (f.dst = 0 ∧ f.kind = 0x22) →
      (commonUsed s.line < 14 → ∃ t, exec (.throughFrame .f f) s = .next t ∧ placedC t (.fwd f) ∧
        t.offLine = (hear f.src s).offLine) ∧
      (14 ≤ commonUsed s.line → ∃ t, exec (.throughFrame .f f) s = .next t ∧ t.offLine = { (hear f.src s).offLine with
        line := { fcnt := { s.line.fcnt with dropped := min 65535 (s.line.fcnt.dropped + 1) }
                  ccnt := s.line.ccnt } })) ∧
    (f.dst ≠ 0 → f.kind ≠ 0x21 →
      ((s.line.fq.filter isForward).length < 6 → ∃ t, exec (.throughFrame .c f) s = .next t ∧ placedF t (.fwd f) ∧
        t.offLine = s.offLine) ∧
      (6 ≤ (s.line.fq.filter isForward).length → ∃ t, exec (.throughFrame .c f) s = .next t ∧
        t.offLine = { s.offLine with
          line := { fcnt := s.line.fcnt
                    ccnt := { s.line.ccnt with dropped := min 65535 (s.line.ccnt.dropped + 1) } } })) ∧
    (f.dst ≠ 0 → f.kind = 0x21 → (∀ x, nodeAt s f.dst = some x → x.role ≠ .valve) →
      let counted : Counters := { s.line.ccnt with valveOrders := min 65535 (s.line.ccnt.valveOrders + 1) }
      ∃ t, exec (.throughFrame .c f) s = .next t ∧ t.line = { s.line with ccnt := counted } ∧ t.req = s.req ∧
        t.offLine = { s.offLine with line := { fcnt := s.line.fcnt, ccnt := counted } })) ∧
  (∀ (s : State) (p : Port) (f : Frame), s.power.state = .standby → p = .f ∨ f.dst ≠ 0 →
    ∃ t, exec (.throughFrame p f) s = .next t ∧ t.line = s.line ∧ t.req = s.req ∧ t.offLine = s.offLine) ∧
  (∀ (s : State) (src q : Byte) (n : NodeEntry) (i : Instr) (kind : Byte) (payload : List Byte),
    s.power.state = .on ∨ s.power.state = .starting → s.store.settings.rawEcho = true → addressOk src = true →
    nodeAt s src = some n →
    (∃ f r e : Word16, n.role = .tally ∧ 1 ≤ e.toNat ∧ e.toNat ≤ 5000 ∧ i = .tally 127 src q f r e ∧ kind = 0x11 ∧
      payload = tallyPayload f r e) ∨
    (∃ (v : Word16) (st : Byte), n.role = .probe ∧ (st = 0 ∨ st = 1) ∧ i = .probe 127 src q v st ∧ kind = 0x12 ∧
      payload = probePayload v st) ∨
    (∃ v : Byte, (n.role = .vapour ∧ (v = 0 ∨ v = 1) ∨ n.role = .reel ∧ (v = 2 ∨ v = 3)) ∧
      (i = .contact 127 src q v ∨ i = .reelContact 127 src q v) ∧ kind = 0x13 ∧ payload = [v]) →
    let copy : Frame := { dst := 127, src := src, kind := kind, seq := q, payload := payload }
    (Roomy s → ∃ t, exec i s = .next t ∧ placedC t (.fwd copy) ∧ t.line.fcnt = s.line.fcnt) ∧
    ((s.ch n.chan).ctx.state = .idle → 14 ≤ commonUsed s.line → ∃ t, exec i s = .next t ∧
      t.line.fcnt = { s.line.fcnt with dropped := min 65535 (s.line.fcnt.dropped + 1) }))

/-! ### Metering (R45 to R61) -/

/-- R45, R46, R47, R48, R50: a tally that finds no baseline, or the part in STARTING, sets the baseline only; that the
ticket baseline mark stays set in an open ticket is the model's choice, notes/assumptions/66.md. Outside a ticket, or as
the first tally of a ticket, a tally within the jump limit adds its forward delta to the totalizer and to the unticketed
pulses; beyond it the tally counts nowhere, and in a ticket TALLY is handed. A sequence gap is counted. -/
def Obligations.TalliesOutsideATicketAndJumps : Prop :=
  ∀ (s : State) (src q : Byte) (f r e : Word16) (n : NodeEntry),
    addressOk src = true → nodeAt s src = some n → n.role = .tally → 1 ≤ e.toNat → e.toNat ≤ 5000 →
    let baseline : Meter → Meter := fun m => { m with baseline := some { fwd := f, rev := r, seq := q } }
    (s.power.state = .starting ∨ s.power.state = .on ∧ (s.ch n.chan).meter.baseline = none →
      ∃ t, exec (.tally 127 src q f r e) s = .next t ∧
        ButForEcho t (modMeter n.chan baseline (hear src s))) ∧
    (∀ b : Baseline, s.power.state = .on → (s.ch n.chan).meter.baseline = some b →
      let gap : Nat → Nat := fun g => if q = b.seq + 1 then g else min 65535 (g + 1)
      ((metering (s.ch n.chan).ctx.state = false ∨ (s.ch n.chan).meter.firstTally = true) →
        ((f - b.fwd).toNat ≤ s.store.metset.jumpLimit → ∃ t, exec (.tally 127 src q f r e) s = .next t ∧
          ButForEcho t (modMeter n.chan (fun m =>
            { baseline m with
              gapsSinceStart := gap m.gapsSinceStart
              totalizer := m.totalizer + (f - b.fwd).setWidth 32
              unticketed := min 4294967295 (m.unticketed + (f - b.fwd).toNat), firstTally := false }) (hear src s))) ∧
        (s.store.metset.jumpLimit < (f - b.fwd).toNat → ∃ t, exec (.tally 127 src q f r e) s = .next t ∧
          ButForEcho t (modMeter n.chan (fun m =>
            { baseline m with gapsSinceStart := gap m.gapsSinceStart, firstTally := false }) (hear src s)))) ∧
      (metering (s.ch n.chan).ctx.state = true → (s.ch n.chan).meter.firstTally = false →
        s.store.metset.jumpLimit < (f - b.fwd).toNat →
        let u := modMeter n.chan (fun m =>
          { baseline m with gapsSinceStart := gap m.gapsSinceStart, gaps := gap m.gaps }) (hear src s)
        ∃ t, exec (.tally 127 src q f r e) s = .next t ∧
          ButForEcho t (u.setCh n.chan (handed u n.chan [.tally] 0))))

/-- R46, R48, R50, R54, R57: a tally of a ticket within the jump limit adds its deltas to the ticket's pulses, the
forward less the reverse delta times the current corrected temperature to the weighted sum, its volume and elapsed time
to the rate window, and the forward delta to the totalizer; the applied factor, the reading, the unticketed pulses and the
baseline mark stay, and beyond the channel only raw echo is seen. R49, R52, R60: TALLY is handed where the ticket's
reverse pulses exceed the reverse limit, PROBE where no reading is held, CREEP where in ARMED, PAUSED or HELD the creep
count first exceeds its limit, as one group (R61), which moves an open context to HELD or joins the set of a held one;
R92, R142: the report reaches the episode's pulses or the rest timer. Sums beyond a field's range are free values
(notes/assumptions/11.md). The model's readings: a tally without pulses is counted like any other
(notes/assumptions/19.md), and the reverse limit is compared at every counted tally, one without reverse pulses included
(notes/assumptions/20.md). -/
def Obligations.TalliesOfATicketAreSummed : Prop :=
  ∀ (s : State) (src q : Byte) (f r e : Word16) (n : NodeEntry) (b : Baseline),
    addressOk src = true → nodeAt s src = some n → n.role = .tally → 1 ≤ e.toNat → e.toNat ≤ 5000 →
    s.power.state = .on → (s.ch n.chan).meter.baseline = some b → metering (s.ch n.chan).ctx.state = true →
    (s.ch n.chan).meter.firstTally = false → (f - b.fwd).toNat ≤ s.store.metset.jumpLimit →
    let m := (s.ch n.chan).meter
    let y := (s.ch n.chan).ctx
    let fd := (f - b.fwd).toNat
    let rd := (r - b.rev).toNat
    let watched := y.state = .armed ∨ y.state = .paused ∨ y.state = .held
    let creeps := watched ∧ m.creepMark = false ∧ s.store.settings.creepLimit < within 4294967295 (m.creep + fd)
    let group : List Cause :=
      (if s.store.metset.reverseLimit < within 4294967295 (m.rev + rd) then [.tally] else []) ++
      (if m.probe = none then [.probe] else []) ++ (if creeps then [.creep] else [])
    ∃ t x, exec (.tally 127 src q f r e) s = .next t ∧ ButForEcho t ((hear src s).setCh n.chan x) ∧
      x.meter.baseline = some { fwd := f, rev := r, seq := q } ∧
      x.meter.fwd = within 4294967295 (m.fwd + fd) ∧ x.meter.rev = within 4294967295 (m.rev + rd) ∧
      x.meter.weighted =
        m.weighted + ((fd : Int) - rd) * ((match m.probe with | some t => t | none => 150) + m.offset) ∧
      x.meter.window.getLast? = some { gross := (fd - rd) * m.mf / 10000, elapsed := e.toNat } ∧
      x.meter.window.length = min 4 (m.window.length + 1) ∧
      x.meter.totalizer = m.totalizer + (f - b.fwd).setWidth 32 ∧
      x.meter.gaps = (if q = b.seq + 1 then m.gaps else min 65535 (m.gaps + 1)) ∧
      x.meter.mf = m.mf ∧ x.meter.unticketed = m.unticketed ∧ x.meter.firstTally = false ∧
      x.meter.probe = m.probe ∧ x.meter.fresh = (m.fresh && m.probe.isSome) ∧
      x.ctx.flags.creepSeen = (if creeps then true else y.flags.creepSeen) ∧
      (group ≠ [] → y.state ≠ .held → x.ctx.state = .held ∧ x.ctx.primary = primaryOf group ∧
        x.ctx.causes = joinCauses group y.causes ∧ x.ctx.rest = some 0 ∧ x.meter.creep = 0 ∧
        x.meter.creepMark = false ∧ x.ctx.episodePulses = y.episodePulses) ∧
      (y.state = .held → x.ctx.state = .held ∧ x.ctx.primary = y.primary ∧
        x.ctx.causes = (if group = [] then y.causes else joinCauses group y.causes) ∧
        x.ctx.rest = (if fd = 0 then y.rest else some 0) ∧
        x.meter.creep = within 4294967295 (m.creep + fd) ∧
        x.meter.creepMark = (if creeps then true else m.creepMark)) ∧
      (group = [] → (y.state = .armed ∨ y.state = .paused ∨ y.state = .settling) → x.ctx = y ∧
        x.meter.creep = (if y.state = .settling then m.creep else within 4294967295 (m.creep + fd))) ∧
      (group = [] → y.state = .flowing → x.ctx.episodePulses = within 4294967295 (y.episodePulses + fd))

/-- R134: a tally with a known baseline, not the first of a ticket and within the jump limit, leaves no context FLOWING at
or above its authorised volume, told by net, or by gross in a proving run. R61, R132: such a tally in FLOWING that hands no
cause is evaluated by the stop monitor on the figures it leaves. R129, R130, R131: how an evaluation judges both watch
points: the value compared, the count and the persistence, the RATE grace, the three modes, which fire and which act.
R132: A's action, then B's, then the guard, then the raise; a proving run goes through the last two only. R133: the five
actions in FLOWING, SETTLING and HELD. R126: the gate raises SLOW to FULL where FULL is asked for, no SLOW action has
fired and the net has reached the start-slow volume. The model's readings: tallies without pulses are evaluated too
(notes/assumptions/19.md), and a count stays at 256, the top of its range (notes/assumptions/41.md). -/
def Obligations.NoTallyLeavesAFlowBeyondItsAuthorisation : Prop :=
  (∀ (s t : State) (src q : Byte) (f r e : Word16) (n : NodeEntry) (b : Baseline),
    addressOk src = true → nodeAt s src = some n → n.role = .tally → 1 ≤ e.toNat → e.toNat ≤ 5000 →
    s.power.state = .on → (s.ch n.chan).meter.baseline = some b → (s.ch n.chan).meter.firstTally = false →
    (f - b.fwd).toNat ≤ s.store.metset.jumpLimit →
    exec (.tally 127 src q f r e) s = .next t → (t.ch n.chan).ctx.state = .flowing →
    liveFigure t n.chan < (t.ch n.chan).ctx.authorised) ∧
  (∀ (s : State) (src q : Byte) (f r e : Word16) (n : NodeEntry) (b : Baseline),
    addressOk src = true → nodeAt s src = some n → n.role = .tally → 1 ≤ e.toNat → e.toNat ≤ 5000 →
    s.power.state = .on → (s.ch n.chan).meter.baseline = some b → (s.ch n.chan).meter.firstTally = false →
    (f - b.fwd).toNat ≤ s.store.metset.jumpLimit → (s.ch n.chan).ctx.state = .flowing →
    (s.ch n.chan).meter.probe.isSome →
    within 4294967295 ((s.ch n.chan).meter.rev + (r - b.rev).toNat) ≤ s.store.metset.reverseLimit →
    let gap : Nat → Nat := fun g => if q = b.seq + 1 then g else min 65535 (g + 1)
    let u := modCtx n.chan
      (fun x => { x with episodePulses := within 4294967295 (x.episodePulses + (f - b.fwd).toNat) })
      (modMeter n.chan (fun m => addSums .flowing (f - b.fwd).toNat (r - b.rev).toNat e.toNat false
        { m with
          baseline := some { fwd := f, rev := r, seq := q }, totalizer := m.totalizer + (f - b.fwd).setWidth 32
          gaps := gap m.gaps, gapsSinceStart := gap m.gapsSinceStart }) (hear src s))
    ∃ t, exec (.tally 127 src q f r e) s = .next t ∧ ButForEcho t (evaluate n.chan u)) ∧
  (∀ (p : StopProgram) (m : Monitor) (f : Figures) (authorised : Nat),
    let value (w : Watch) : Nat := match w.reference with
      | .absolute => w.value
      | .fromAuthorised => authorised - w.value
    let live (w : Watch) : Nat := match w.quantity with
      | .net => f.net
      | .gross => f.gross
      | .rate => f.rate
      | .amount => f.amount
    let holds (w : Watch) : Prop := match w.relation with
      | .atOrAbove => value w ≤ live w
      | .below => live w < value w
    let satisfied (w : Watch) (count : Nat) : Prop := holds w ∧ w.persistence + 1 ≤ min 256 (count + 1)
    let graced (w : Watch) : Prop := w.quantity = .rate → 4 < m.tallies
    let judgedA := graced p.watchA ∧ (p.mode = .joint ∨ m.firedA = false)
    let firesA := judgedA ∧ m.firedA = false ∧ satisfied p.watchA m.countA
    let judgedB := graced p.watchB ∧ m.firedB = false ∧ (p.mode = .sequence → m.firedA = true ∨ firesA)
    let firesB := judgedB ∧ satisfied p.watchB m.countB ∧ (p.mode = .joint → judgedA ∧ satisfied p.watchA m.countA)
    let j := judge p m f authorised
    (judgedA → (holds p.watchA → j.countA = min 256 (m.countA + 1)) ∧ (¬ holds p.watchA → j.countA = 0)) ∧
    (¬ judgedA → j.countA = m.countA) ∧
    (judgedB → (holds p.watchB → j.countB = min 256 (m.countB + 1)) ∧ (¬ holds p.watchB → j.countB = 0)) ∧
    (¬ judgedB → j.countB = m.countB) ∧
    (j.firesA = true ↔ firesA) ∧ (j.actsA = true ↔ firesA ∧ p.mode ≠ .joint) ∧ (j.firesB = true ↔ firesB)) ∧
  (∀ (s : State) (c : Chan),
    let f : Figures :=
      { gross := liveGross s c, net := liveNet s c, rate := rateOf (s.ch c).meter.window, amount := liveDue s c }
    let tallied (m : Monitor) : Monitor := { m with tallies := min 65535 (m.tallies + 1) }
    ((s.ch c).ctx.mode = .proving → evaluate c s = raiseOrder c f (judgeGuard c f s)) ∧
    ((s.ch c).ctx.mode = .delivery → (s.ch c).monitor.program.bind (programOf s) = none →
      evaluate c s = raiseOrder c f (judgeGuard c f (modMonitor c tallied s))) ∧
    (∀ p, (s.ch c).ctx.mode = .delivery → (s.ch c).monitor.program.bind (programOf s) = some p →
      let j := judge p (tallied (s.ch c).monitor) f (s.ch c).ctx.authorised
      let u := modMonitor c (fun m =>
        { tallied m with countA := j.countA, countB := j.countB, firedA := m.firedA || j.firesA }) s
      let v := if j.actsA = true then takeAction c p.watchA.action u else u
      let w := modMonitor c (fun m => { m with firedB := m.firedB || j.firesB }) v
      evaluate c s = raiseOrder c f (judgeGuard c f
        (if j.firesB = true then takeAction c p.watchB.action w else w)))) ∧
  (∀ (s : State) (c : Chan),
    let x := s.ch c
    let noted := modMonitor c (fun m => { m with noteSeen := true })
      (modCtx c (fun k => { k with episodes := modLastEpisode (fun e => { e with note := true }) k.episodes }) s)
    let limited : Channel := { x with gate := { x.gate with limited := true } }
    let fired := modMonitor c (fun m => { m with endFired := true }) s
    (takeAction c .note s).offLine = noted.offLine ∧
    (takeAction c .slow s).offLine = (s.setCh c
      (if x.ctx.state = .flowing ∧ x.gate.position = .full then ordered s c .slow limited else limited)).offLine ∧
    (takeAction c .close s).offLine =
      (if x.ctx.state = .flowing then s.setCh c (settledBy s c .program) else s).offLine ∧
    (takeAction c .hold s).offLine = (s.setCh c (handed s c [.program] 0)).offLine ∧
    (x.ctx.state = .flowing →
      (takeAction c .endDelivery s).offLine = (fired.setCh c (settledBy fired c .endAction)).offLine) ∧
    (x.ctx.state = .settling → (takeAction c .endDelivery s).offLine =
      (modCtx c (fun k => { k with autoClose := true }) fired).offLine) ∧
    (x.ctx.state = .held → (takeAction c .endDelivery s).offLine = fired.offLine)) ∧
  (∀ (s : State) (c : Chan) (f : Figures),
    let x := s.ch c
    let reached := x.ctx.authorised ≤ (match x.ctx.mode with | .delivery => f.net | .proving => f.gross)
    let fired := modMonitor c (fun m => { m with guard := true }) s
    let raised := x.ctx.state = .flowing ∧ x.ctx.mode = .delivery ∧ x.gate.position = .slow ∧
      x.gate.requested = some .full ∧ x.gate.limited = false ∧
      (match x.ctx.product.bind (productOf s) with | some e => e.startSlow * 100 | none => 0) ≤ f.net
    (reached → (judgeGuard c f s).offLine =
      (if x.ctx.state = .flowing then fired.setCh c (settledBy fired c .guard) else fired).offLine) ∧
    (¬ reached → judgeGuard c f s = s) ∧
    (raised → (raiseOrder c f s).offLine = (s.setCh c (ordered s c .full x)).offLine) ∧
    (¬ raised → raiseOrder c f s = s))

/-- R52, R58, R59: a reading of status OK within -40.0 to 60.0 becomes the current reading, fresh; any other clears
the fresh mark and hands PROBE to an open context. A VAPOUR contact sets the vapour state and, at VAPOUR, hands AIR to
an open context; a REEL contact sets the reel state and, at STOWED, hands REEL to a FLOWING one. -/
def Obligations.ReadingsAndContactsAreTaken : Prop :=
  ∀ (s : State) (src q : Byte) (n : NodeEntry), s.power.state = .on ∨ s.power.state = .starting →
    addressOk src = true → nodeAt s src = some n →
    let h := hear src s
    (n.role = .probe → ∀ v : Word16,
      (-400 ≤ v.toInt → v.toInt ≤ 600 → ∃ t, exec (.probe 127 src q v 0) s = .next t ∧
        ButForEcho t (modMeter n.chan (fun m =>
          { m with probe := some v.toInt, fresh := true
                   stale := if m.stale = .expired then .running else m.stale }) h)) ∧
      (∀ st : Byte, st = 1 ∨ st = 0 ∧ (v.toInt < -400 ∨ 600 < v.toInt) →
        let u := modMeter n.chan (fun m => { m with fresh := false }) h
        ∃ t, exec (.probe 127 src q v st) s = .next t ∧
          ButForEcho t (u.setCh n.chan (handed u n.chan [.probe] 0)))) ∧
    (n.role = .vapour → ∀ (i : Instr) (v : Byte), i = .contact 127 src q v ∨ i = .reelContact 127 src q v →
      (v = 0 → ∃ t, exec i s = .next t ∧
        ButForEcho t (modMeter n.chan (fun m => { m with vapour := .liquid }) h)) ∧
      (v = 1 → let u := modMeter n.chan (fun m => { m with vapour := .vapour }) h
        ∃ t, exec i s = .next t ∧ ButForEcho t (u.setCh n.chan (handed u n.chan [.air] 0)))) ∧
    (n.role = .reel → ∀ (i : Instr) (v : Byte), i = .contact 127 src q v ∨ i = .reelContact 127 src q v →
      (v = 2 → ∃ t, exec i s = .next t ∧ ButForEcho t (modMeter n.chan (fun m => { m with reel := .out }) h)) ∧
      (v = 3 → let u := modMeter n.chan (fun m => { m with reel := .stowed }) h
        ∃ t, exec i s = .next t ∧ ButForEcho t
          (if (s.ch n.chan).ctx.state = .flowing then u.setCh n.chan (handed u n.chan [.reel] 0) else u)))

/-! ### The valve gate (R119 to R127) -/

/-- R120: an answer with no order outstanding, or with another number, is stale and changes nothing; with the number
and the ordered position it confirms the order, clears the miss mark and withdraws a resend still queued; with another
position it hands VALVE. That a first attempt still queued is withdrawn like a resend is the model's choice,
notes/assumptions/55.md. -/
def Obligations.ValveAnswersAreJudged : Prop :=
  ∀ (s : State) (src q p number : Byte) (x : Pos) (n : NodeEntry), s.power.state = .on ∨ s.power.state = .starting →
    addressOk src = true → nodeAt s src = some n → n.role = .valve → posOf p = some x →
    let h := hear src s
    ((∀ o, (s.ch n.chan).gate.outstanding = some o → o.number ≠ number) →
      ∃ t, exec (.valveAnswer 0 src q p number) s = .next t ∧ t.offLine = h.offLine) ∧
    (∀ o, (s.ch n.chan).gate.outstanding = some o → o.number = number →
      (x = (s.ch n.chan).gate.position → ∃ t, exec (.valveAnswer 0 src q p number) s = .next t ∧
        ordersQueued t n.chan = [] ∧
        t.offLine = (modGate n.chan (fun g =>
          { g with outstanding := none, timer := false, confirmed := true, missed := false }) h).offLine) ∧
      (x ≠ (s.ch n.chan).gate.position → ∃ t, exec (.valveAnswer 0 src q p number) s = .next t ∧
        t.offLine = (h.setCh n.chan (handed h n.chan [.valve] 0)).offLine))

/-- R123: a cab CLOSED order ends the episode of a FLOWING context with cause DRIVER, and is accepted without effect
in every other state; the answer carries the ordered position and the cab's number. -/
def Obligations.CabClosedOrders : Prop :=
  ∀ (s : State) (dst src q number : Byte) (n : NodeEntry), s.power.state = .on → s.ctl.lockout = .none →
    dst ≠ 0 → dst.toNat ≤ 127 → addressOk src = true → nodeAt s dst = some n → n.role = .valve →
    ((s.ch n.chan).ctx.state = .flowing → Roomy s → ∃ t, exec (.cabValveClosed dst src q number) s = .next t ∧
      cabAnswered t n.chan src q number none ∧
      t.offLine = (s.setCh n.chan (settledBy s n.chan .driver)).offLine) ∧
    ((s.ch n.chan).ctx.state ≠ .flowing → AnswerRoom s →
      ∃ t, exec (.cabValveClosed dst src q number) s = .next t ∧ cabAnswered t n.chan src q number none ∧
        t.offLine = s.offLine)

/-- R124, R125: a cab SLOW or FULL order that passes the checks of a start opens an episode, the context becomes
FLOWING and the gate orders SLOW or FULL; in FLOWING it changes the requested position and, through it, the order. It
is accepted. R124, step 3: the position a start is ordered at. -/
def Obligations.CabStartsAndChanges : Prop :=
  (∀ (s : State) (c : Chan) (p : Pos),
    let below := liveNet s c <
      (match (s.ch c).ctx.product.bind (productOf s) with | some e => e.startSlow * 100 | none => 0)
    ((s.ch c).ctx.mode = .proving → startPosition s c p = p) ∧
    ((s.ch c).ctx.mode = .delivery →
      startPosition s c p = if below ∨ (s.ch c).gate.limited = true ∨ p = .slow then .slow else .full)) ∧
  ∀ (s : State) (dst src q number : Byte) (full : Bool) (n : NodeEntry), s.power.state = .on → s.ctl.lockout = .none →
    s.req.restart = none → dst ≠ 0 → dst.toNat ≤ 127 → addressOk src = true → nodeAt s dst = some n →
    n.role = .valve →
    let c := n.chan
    let p : Pos := if full then .full else .slow
    ((s.ch c).ctx.state = .armed ∨ (s.ch c).ctx.state = .paused → (s.ch c).meter.reel = .out →
      (s.ch c).monitor.guard = false → (s.ch c).ctx.episodes.length < 8 → Roomy s →
      ∃ t, exec (.cabValveOpen dst src q full number) s = .next t ∧ cabAnswered t c src q number none ∧
        t.offLine = (s.setCh c (started s c p)).offLine) ∧
    ((s.ch c).ctx.state = .flowing → AnswerRoom s →
      let x := { s.ch c with gate := { (s.ch c).gate with requested := some p } }
      let g := (s.ch c).gate
      let y := match (s.ch c).ctx.mode, full with
        | .proving, _ => if g.position = p then x else ordered s c p x
        | .delivery, false => if g.position = .full then ordered s c .slow x else x
        | .delivery, true =>
          if g.position = .slow ∧ g.limited = false ∧ startSlow s c ≤ liveNet s c then ordered s c .full x else x
      ∃ t, exec (.cabValveOpen dst src q full number) s = .next t ∧ cabAnswered t c src q number none ∧
        t.offLine = (s.setCh c y).offLine)

/-- R122, R124, R127, R203: a cab order in STARTING is refused STATE, in lockout LOCKOUT, a SLOW or FULL order after
an accepted RESTART STATE, and in IDLE, SETTLING, HELD, CLOSING or FAULTED STATE; a start is refused REEL unless the
reel is OUT, LIMIT while the guard holds, EPISODES after eight. A refused order changes nothing, and the answer
reports the ordered position. That lockout is judged ahead of an accepted RESTART is the model's choice,
notes/assumptions/40.md. -/
def Obligations.CabOrdersRefused : Prop :=
  ∀ (s : State) (dst src q number : Byte) (full : Bool) (n : NodeEntry), dst ≠ 0 → dst.toNat ≤ 127 →
    addressOk src = true → nodeAt s dst = some n → n.role = .valve → AnswerRoom s →
    let refused (i : Instr) (r : RefCode) : Prop := ∃ t, exec i s = .next t ∧
      cabAnswered t n.chan src q number (some r) ∧ t.offLine = s.offLine
    let x := (s.ch n.chan).ctx
    (s.power.state = .starting → refused (.cabValveClosed dst src q number) .state ∧
      refused (.cabValveOpen dst src q full number) .state) ∧
    (s.power.state = .on → s.ctl.lockout ≠ .none → refused (.cabValveClosed dst src q number) .lockout ∧
      refused (.cabValveOpen dst src q full number) .lockout) ∧
    (s.power.state = .on → s.ctl.lockout = .none →
      (s.req.restart.isSome → refused (.cabValveOpen dst src q full number) .state) ∧
      (s.req.restart = none →
        (x.state = .idle ∨ x.state = .settling ∨ x.state = .held ∨ x.state = .closing ∨ x.state = .faulted →
          refused (.cabValveOpen dst src q full number) .state) ∧
        (x.state = .armed ∨ x.state = .paused →
          ((s.ch n.chan).meter.reel ≠ .out → refused (.cabValveOpen dst src q full number) .reel) ∧
          ((s.ch n.chan).meter.reel = .out →
            ((s.ch n.chan).monitor.guard = true → refused (.cabValveOpen dst src q full number) .limit) ∧
            ((s.ch n.chan).monitor.guard = false → 8 ≤ x.episodes.length →
              refused (.cabValveOpen dst src q full number) .episodes)))))

/-- R119: at a miss of the first attempt the order goes out again under its number and the retries count rises; from
the second attempt on the miss mark is set and VALVE is handed, and a CLOSED order goes out again. An expiry of a
timer that does not run changes nothing (the model's choice, notes/assumptions/1.md). -/
def Obligations.MissedOrdersAreResentAndHeld : Prop :=
  ∀ (s : State) (c : Chan), s.power.state = .on ∨ s.power.state = .starting →
    (∀ (o : Order) (n : NodeEntry), (s.ch c).gate.timer = true → (s.ch c).gate.outstanding = some o →
      nodeOf s c .valve = some n →
      let again (x : Channel) : Channel := { x with gate := { x.gate with
        outstanding := some { o with phase := .queued, attempts := o.attempts + 1 }
        timer := false, retries := min 65535 (x.gate.retries + 1) } }
      let u := modGate c (fun g => { g with timer := false, missed := true }) s
      (o.attempts < 2 → ∃ t, exec (.answerTimerExpiry c) s = .next t ∧
        t.offLine = (s.setCh c (again (s.ch c))).offLine ∧ ∃ q, placedF t (.order c n.address q o.position o.number)) ∧
      (2 ≤ o.attempts → o.position = .closed → (s.ch c).gate.position = .closed →
        ∃ t, exec (.answerTimerExpiry c) s = .next t ∧
          t.offLine = (s.setCh c (again (handed u c [.valve] 0))).offLine ∧
          ∃ q, placedF t (.order c n.address q .closed o.number)) ∧
      (2 ≤ o.attempts → o.position ≠ .closed → ∃ t, exec (.answerTimerExpiry c) s = .next t ∧
        t.offLine = (u.setCh c (handed u c [.valve] 0)).offLine)) ∧
    ((s.ch c).gate.timer = false → ∃ t, exec (.answerTimerExpiry c) s = .next t ∧ t.offLine = s.offLine)

/-! ### Transmitters and timers -/

/-- R14, R119: when the F transmitter ends the gate's outstanding order, its phase becomes SENT and the answer timer
starts; a forwarded frame tells nobody. The next frame begins at once: a CLOSED order first, otherwise the one placed
earliest. With no frame on the line nothing changes (the model's choice, notes/assumptions/1.md). -/
def Obligations.FTransmitterEndsAndStartsTheNext : Prop :=
  ∀ s : State, s.power.state = .on ∨ s.power.state = .starting →
    (∀ f, s.line.fline = some (.fwd f) → ∃ t, exec .fTransmitEnd s = .next t ∧ t.offLine = s.offLine) ∧
    (∀ (c : Chan) (d q number : Byte) (p : Pos) (o : Order), s.line.fline = some (.order c d q p number) →
      (s.ch c).gate.outstanding = some o →
      (o.number = number → ∃ t, exec .fTransmitEnd s = .next t ∧ t.offLine = (modGate c (fun g =>
        { g with outstanding := some { o with phase := .sent }, timer := true }) s).offLine) ∧
      (o.number ≠ number → ∃ t, exec .fTransmitEnd s = .next t ∧ t.offLine = s.offLine)) ∧
    (s.line.fline.isSome →
      (∀ (before after : List FFrame) (f : FFrame), s.line.fq = before ++ f :: after →
        (isClosedOrder f = true ∧ (∀ g ∈ before, isClosedOrder g = false) ∨
          before = [] ∧ ∀ g ∈ f :: after, isClosedOrder g = false) →
        ∃ t, exec .fTransmitEnd s = .next t ∧ t.line.fline = some f ∧ t.line.fq = before ++ after) ∧
      (s.line.fq = [] → ∃ t, exec .fTransmitEnd s = .next t ∧ t.line.fline = none ∧ t.line.fq = [])) ∧
    (s.line.fline = none → ∃ t, exec .fTransmitEnd s = .next t ∧ t.offLine = s.offLine)

/-- R17: when the C transmitter ends a frame, the queued frame placed earliest begins, and its place goes to the frame that
has waited longest among those allowed in it: any in a common place, an answer frame only in a reserved one. That frame
joins the queue behind the rest, and a reply so placed ends its request; with nothing suitable waiting the place stays
free. Nothing else changes apart from the line. -/
def Obligations.CTransmitterEndsAndHandsThePlace : Prop :=
  ∀ (s : State) (f : CFrame), s.power.state = .on ∨ s.power.state = .starting → s.line.cline = some f →
    s.req.restart = none →
    (∀ (e : CEntry) (rest : List CEntry), s.line.cq = e :: rest →
      ∃ t, exec .cTransmitEnd s = .next t ∧ t.line.cline = some e.frame ∧ t.offLine = s.offLine ∧
        (∀ (before after : List CFrame) (w : CFrame), s.line.cwait = before ++ w :: after →
          (e.reserved = false ∧ before = [] ∨
            e.reserved = true ∧ isAnswerFrame w = true ∧ ∀ g ∈ before, isAnswerFrame g = false) →
          { frame := w, reserved := e.reserved } ∈ t.line.cq ∧
          (∀ r : Reply, w = .reply r → ∀ p ∈ t.req.inProgress, p.station ≠ r.dst) ∧
          ((∀ c, isPrintOf c w = true → (s.ch c).heldPrint = none) →
            t.line.cq = rest ++ [{ frame := w, reserved := e.reserved }] ∧ t.line.cwait = before ++ after)) ∧
        ((s.line.cwait = [] ∨ e.reserved = true ∧ ∀ g ∈ s.line.cwait, isAnswerFrame g = false) →
          t.line.cq = rest ∧ t.line.cwait = s.line.cwait)) ∧
    (s.line.cq = [] → ∃ t, exec .cTransmitEnd s = .next t ∧ t.line.cline = none ∧ t.line.cwait = s.line.cwait ∧
      t.offLine = s.offLine)

/-- R19, R53: at a node's silence limit its lapse mark is set, its timer stops, and SILENT is handed with the node's
address; at the staleness of the probe the fresh mark clears and PROBE is handed. Expiries of stopped timers change
nothing (the model's choice, notes/assumptions/1.md). R63: at the end of the notice interval a pending notice is
produced with the values of that moment and the interval begins anew; without one the timer stops. No other state
changes. R62: the values of a notice, field by field; in CLOSING and FAULTED its figures are those of the built record. -/
def Obligations.NodeAndNoticeTimersExpire : Prop :=
  (∀ s : State, s.power.state ≠ .shutdown →
     (∀ (c d : Chan) (node : Byte), c ≠ d → runsSilence (s.ch c) node = true → runsSilence (s.ch d) node = false →
       let u := modCh c (fun x => { x with silence := x.silence.map fun y =>
         if y.node = node then { y with running := false, lapsed := true } else y }) s
       ∃ t, exec (.silenceTimerExpiry node) s = .next t ∧
         t.offLine = (u.setCh c (handed u c [.silent] node)).offLine) ∧
     (∀ node : Byte, runsSilence s.chA node = false → runsSilence s.chB node = false →
       ∃ t, exec (.silenceTimerExpiry node) s = .next t ∧ t.offLine = s.offLine) ∧
     (∀ c : Chan, (s.ch c).meter.stale = .running →
       let u := modMeter c (fun m => { m with stale := .expired, fresh := false }) s
       ∃ t, exec (.probeStalenessExpiry c) s = .next t ∧
         t.offLine = (u.setCh c (handed u c [.probe] 0)).offLine) ∧
     (∀ c : Chan, (s.ch c).meter.stale ≠ .running →
       ∃ t, exec (.probeStalenessExpiry c) s = .next t ∧ t.offLine = s.offLine)) ∧
  (∀ (s : State) (c : Chan), s.power.state = .on ∨ s.power.state = .starting →
     (∃ t, exec (.noticeTimerExpiry c) s = .next t ∧ t.offLine = s.offLine) ∧
     ((s.ch c).meter.noticeTimer = true → (s.ch c).meter.noticePending = false →
       ∃ t, exec (.noticeTimerExpiry c) s = .next t ∧ (t.ch c).meter.noticeTimer = false ∧ t.line = s.line) ∧
     ((s.ch c).meter.noticeTimer = true → (s.ch c).meter.noticePending = true → s.store.settings.cab ≠ 0 →
       (∀ f ∈ s.line.cwait, isNoticeOf c f = false) → commonUsed s.line < 14 →
       ∃ t, exec (.noticeTimerExpiry c) s = .next t ∧ (t.ch c).meter.noticeTimer = true ∧
         (t.ch c).meter.noticePending = false ∧
         placedC t (.notice s.store.settings.cab s.line.cseq (noticeOf s c)))) ∧
  (∀ (s : State) (c : Chan),
     let x := (s.ch c).ctx
     let n := noticeOf s c
     let figures (gross net due remaining : Nat) (temp : Int) : Prop :=
       n.gross = gross ∧ n.net = net ∧ n.due = due ∧ n.remaining = remaining ∧ n.temp = temp
     n.chan = c ∧ n.state = x.state ∧ n.mode = (if x.state = .idle then .delivery else x.mode) ∧
     n.position = (s.ch c).gate.position ∧ n.causes = x.causes ∧
     n.primary = (if x.state = .held then x.primary else none) ∧
     n.watchA = (s.ch c).monitor.firedA ∧ n.watchB = (s.ch c).monitor.firedB ∧ n.note = (s.ch c).monitor.noteSeen ∧
     (x.state = .idle ∨ x.drop = none → n.drop = 0) ∧
     (∀ d, x.state ≠ .idle → x.drop = some d → n.drop = d.plan.number) ∧
     (x.state = .idle → figures 0 0 0 0
       (match (s.ch c).meter.probe with | some t => t + (s.ch c).meter.offset | none => 150)) ∧
     (metering x.state = true → figures (liveGross s c) (liveNet s c) (liveDue s c)
       (match x.mode with
         | .delivery => x.authorised - liveNet s c
         | .proving => x.authorised - liveGross s c) (averageTemp (s.ch c).meter)) ∧
     (x.state = .closing ∨ x.state = .faulted →
       (∀ t, x.pending = some (.ticket t) → figures t.gross t.net t.due (t.authorised - t.net) t.temp) ∧
       (∀ p y, x.pending = some (.proving p y) → figures p.gross 0 0 (p.target - p.gross) p.temp)))

/-- R95, R96: at the quiet timer a SETTLING context becomes PAUSED with its timers stopped, or, with its auto-close
mark, CLOSING with origin AUTO and its record handed; at the limit timer CREEP-SEEN is set and CREEP handed, so that
it is HELD with the auto-close mark clear. -/
def Obligations.SettlingEnds : Prop :=
  ∀ (s : State) (c : Chan) (x y : Nat), s.power.state ≠ .shutdown → (s.ch c).ctx.state = .settling →
    (s.ch c).ctx.quiet = some x → (s.ch c).ctx.limit = some y →
    ((s.ch c).ctx.autoClose = false → ∃ t, exec (.settleQuietExpiry c) s = .next t ∧
      t.offLine = (s.setCh c { s.ch c with
        ctx := { (s.ch c).ctx with state := .paused, quiet := none, limit := none }
        meter := { (s.ch c).meter with creep := 0, creepMark := false } }).offLine) ∧
    ((s.ch c).ctx.autoClose = true → ∃ t, exec (.settleQuietExpiry c) s = .next t ∧
      (t.ch c).ctx.state = .closing ∧ (t.ch c).ctx.origin = .auto ∧
      t.offLine = (withAppend (s.setCh c { s.ch c with ctx := closingCtx s c .auto none }) (.close c)).offLine) ∧
    (let u := modCtx c (fun k => { k with flags := { k.flags with creepSeen := true } }) s
     ∃ t, exec (.settleLimitExpiry c) s = .next t ∧ (t.ch c).ctx.state = .held ∧ (t.ch c).ctx.autoClose = false ∧
       .creep ∈ (t.ch c).ctx.causes ∧ t.offLine = (u.setCh c (handed u c [.creep] 0)).offLine)

/-! ### The journal and the store at work -/

/-- R168, R170, R171, R172, R190: the arbiter takes the append that has waited longest and begins its program in the
next slot, with the next sequence, the clock of the moment, both totalizers and, for a ticket, the next ticket number;
the header carries the newest ticket number and both audit counters, an AUDIT record the one it names already raised by
one. A management append that the reserve test of R175 does not admit, any but the AUDIT of a CLEAR LOCKOUT, is
returned: its request is refused JOURNAL-FULL and its owner is as before it. R172, R173: without a free slot, or without
a number left, a close fails at once and its context becomes FAULTED; in the second case the block of its slot has
become CURRENT. R179: a drained mark's turn begins its program; one whose record has left the index is passed over.
R172, step 1: the next slot is that of the CURRENT block, or slot 0 of the ERASED block with the lowest erase count, the
lowest number among equals. -/
def Obligations.ArbiterTakesTheOldestAppend : Prop :=
  (∀ s : State,
    let l := s.journal.blocks
    (∀ b, freshBlock s = some b ↔ ∃ i, l[b]? = some i ∧ i.state = .erased ∧
      ∀ n j, l[n]? = some j → j.state = .erased → i.erases < j.erases ∨ i.erases = j.erases ∧ b ≤ n) ∧
    (∀ b i, l[b]? = some i → i.state = .current → (∀ n j, n < b → l[n]? = some j → j.state ≠ .current) →
      nextSlot s = some (b, i.writePoint)) ∧
    ((∀ i ∈ l, i.state ≠ .current) → nextSlot s = (freshBlock s).map fun b => (b, 0))) ∧
  ∀ (s : State) (a : Append) (rest : List Append), s.power.state = .on → s.journal.busy = .idle →
    s.journal.erasing = none → s.journal.reads = [] → s.journal.waiting = a :: rest →
    let freed : Journal := { s.journal with waiting := rest }
    let admits : Prop := 8 ≤ freeSlots s ∧ s.journal.newestSeq < 4294967280 ∧ s.journal.newestTicket < 99999998
    let audits (b : Body) (k : AuditCounter) : Prop := ∃ x, b = .audit x ∧ x.counter = k
    (∀ (b : Body) (block slot : Nat),
      (∀ c x, a = .close c → (s.ch c).ctx.pending = some (.ticket x) → b = .ticket (s.journal.newestTicket + 1) x) →
      (∀ c x y, a = .close c → (s.ch c).ctx.pending = some (.proving x y) → b = .proving x) →
      (∀ c, a = .close c → (s.ch c).ctx.pending.isSome) → (∀ n, a ≠ .mark n) →
      (∀ st x, a = .manage st x → b = x ∧ (admits ∨ ∃ y, x = .audit y ∧ y.change = .lockoutClear)) →
      nextSlot s = some (block, slot) → s.journal.newestSeq < 4294967295 →
      (∀ n x, b = .ticket n x → n ≤ 99999999) →
      ∃ t r, exec .arbiterTake s = .next t ∧
        t.offLine = { s.offLine with journal := { freed with
          busy := .programming a r block slot false
          blocks := s.journal.blocks.modify block fun i => { i with state := .current, writePoint := slot } } } ∧
        r.seq = s.journal.newestSeq + 1 ∧ r.time = s.power.clock ∧ r.clockUnset = s.power.unset ∧
        r.totA = s.chA.meter.totalizer ∧ r.totB = s.chB.meter.totalizer ∧ r.body = b ∧
        (∀ n x, b = .ticket n x → r.ticketHigh = n) ∧
        ((∀ n x, b ≠ .ticket n x) → r.ticketHigh = s.journal.newestTicket) ∧
        (audits b .calibration → r.cal = s.met.cal + 1 ∧ r.cfg = s.met.cfg) ∧
        (audits b .configuration → r.cal = s.met.cal ∧ r.cfg = s.met.cfg + 1) ∧
        ((∀ x, b ≠ .audit x) → r.cal = s.met.cal ∧ r.cfg = s.met.cfg)) ∧
    (∀ (st : Byte) (b : Body) (p : InProgress), a = .manage st b → ¬ admits →
      s.req.inProgress.find? (fun q => q.station = st) = some p → AnswerRoom s →
      let returned (u : State) : Prop := ∃ t, exec .arbiterTake s = .next t ∧
        Answered t st p.seq p.code (some .journalFull) .nothing ∧ t.offLine = { u.offLine with journal := freed }
      let refilled (l : Load) : State := { s with store := { s.store with staging := .filling l } }
      (∀ x, b = .dropNote x → returned { s with route := { s.route with drops := s.route.drops.map fun d =>
        if d.plan.number = x.drop then { d with noteMark := false } else d } }) ∧
      (∀ x, b = .load x → returned { s with comps := { s.comps with
        list := s.comps.list.modify (x.comp - 1) fun k => { k with loadMark := false } } }) ∧
      (∀ n m u c l, b = .routeOpen n m u c → s.store.staging = .activating l → returned (refilled l)) ∧
      (∀ x, b = .routeClose x → returned { s with route := { s.route with state := .opened } }) ∧
      (∀ x l, b = .audit x → (x.change = .correction ∨ x.change = .nodeMap ∨ x.change = .station) →
        s.store.staging = .activating l → returned (refilled l)) ∧
      (∀ x m, b = .audit x → x.change = .setting m → returned s)) ∧
    (∀ c : Chan, a = .close c → (s.ch c).ctx.state = .closing → (s.ch c).ctx.pending.isSome →
      anyFaulted s = false → s.ctl.clearing = none →
      let faults (j : Journal) : Prop := ∃ t, exec .arbiterTake s = .next t ∧ t.journal = j ∧
        (t.ch c).ctx = { (s.ch c).ctx with state := .faulted, requester := none } ∧
        t.ctl.lockout = s.ctl.lockout ∧ t.ctl.faultOrder = s.ctl.faultOrder ++ [c]
      (nextSlot s = none → faults freed) ∧
      (∀ block slot, nextSlot s = some (block, slot) →
        (4294967295 ≤ s.journal.newestSeq ∨
          99999999 ≤ s.journal.newestTicket ∧ ∃ x, (s.ch c).ctx.pending = some (.ticket x)) →
        faults { freed with
          blocks := s.journal.blocks.modify block fun i => { i with state := .current, writePoint := slot } })) ∧
    (∀ (n : Nat) (e : IndexEntry), a = .mark n → indexOf s n = some e → blockState s e.block ≠ .retired →
      ∃ t, exec .arbiterTake s = .next t ∧
        t.offLine = { s.offLine with journal := { freed with busy := .marking n e.block e.slot false } }) ∧
    (∀ (n : Nat) (x : Release) (p : InProgress), a = .mark n → indexOf s n = none → s.journal.release = some x →
      (∀ e ∈ s.journal.index, e.seq ≤ x.target → drainedEntry s.journal e = true) →
      s.req.inProgress.find? (fun q => q.station = x.station) = some p → AnswerRoom s →
      ∃ t, exec .arbiterTake s = .next t ∧ t.offLine = { s.offLine with journal := { freed with release := none } } ∧
        Answered t x.station p.seq p.code none (.released x.marked x.memory (drainCursor s.journal)))

/-- R73, R107, R157, R162: at the commit of a TICKET record the drop's delivered volume, amount, numbers and state, the
compartment and the route totals are raised, the claim and the reservation released, the channel returns to IDLE, and
the waiting requester is answered with the ticket number. R172, step 4: what a commit does in the journal: the slot holds
the record, the index its entry with the drained mark clear, the newest sequence and ticket number are the record's, the
write point advances, the block is FILLED at slot 15, and the anchors follow. R107 (step 3), R109, R110: with a printer
set the record is sent to it as an ORIGINAL under the product's name; with the common places full and a print of the
channel waiting, it becomes the held print. A sum beyond its field is free, notes/assumptions/11.md. R68: the state a drop
takes at a TICKET record. -/
def Obligations.TicketCommitTakesEffect : Prop :=
  (∀ (s : State) (c : Chan) (r : Record) (block slot n : Nat) (retry : Bool) (x : TicketBody) (left : SlotLeft)
    (report : RetireReport), s.power.state = .on → s.journal.busy = .programming (.close c) r block slot retry →
    r.body = .ticket n x → s.ctl.clearing = none →
    let drops := s.route.drops.map fun d =>
      if d.plan.number = x.drop then
        { d with delivered := d.delivered + x.net, amount := d.amount + x.due, tickets := d.tickets ++ [n]
                 state := dropAfter d.state x.status, claimant := none }
      else d
    let list := s.comps.list.modify (x.comp - 1) fun k =>
      { k with delivered := within 4294967295 (k.delivered + x.net), reserved := k.reserved - (s.ch c).ctx.reservation }
    let totals := s.comps.totals.modify (x.product - 1) fun k =>
      { net := within 4294967295 (k.net + x.net), count := k.count + 1 }
    let u := { commitRecord r block slot s with
      route := { s.route with drops := drops }, comps := { list := list, totals := totals }
      ctl := { s.ctl with faultOrder := s.ctl.faultOrder.filter fun d => d != c } }
    let run := exec (.recordProgramEnd true left report) s
    (∃ t, run = .next t ∧ t.offLine = (u.setCh c (idled (s.ch c))).offLine) ∧
    (∀ (st : Byte) (p : InProgress), (s.ch c).ctx.requester = some st →
      s.req.inProgress.find? (fun q => q.station = st) = some p → Roomy s →
      ∃ t, run = .next t ∧ Answered t st p.seq p.code none (.ticket n)) ∧
    (s.store.settings.printer ≠ 0 →
      let print : Print :=
        { chan := c, dst := s.store.settings.printer, record := r, copy := false
          name := match productOf s x.product with | some e => e.name | none => List.replicate 12 0x20 }
      (Roomy s → ∃ t q, run = .next t ∧ placedC t (.print q print)) ∧
      (14 ≤ commonUsed s.line → s.line.cline.isSome → (∃ f ∈ s.line.cwait, isPrintOf c f = true) →
        ∃ t, run = .next t ∧ (t.ch c).heldPrint = some print))) ∧
  (∀ (s : State) (r : Record) (block slot : Nat),
    let j := s.journal
    commitRecord r block slot s = { s with
      nv := { s.nv with array := s.nv.array.modify block fun k =>
        { k with slots := k.slots.set slot (.written r false) } }
      journal := { j with
        busy := .idle, newestSeq := r.seq, newestTicket := r.ticketHigh
        index := j.index ++ [{ seq := r.seq, kind := bodyKind r.body, block := block, slot := slot, drained := false }]
        blocks := j.blocks.modify block fun i =>
          { i with writePoint := slot + 1, state := if slot = 15 then .filled else i.state }
        routeAnchor := match bodyKind r.body with
          | .routeOpen => some r.seq
          | .routeClose => none
          | _ => j.routeAnchor
        compAnchors := match r.body with
          | .load l => j.compAnchors.set (l.comp - 1) (some r.seq)
          | _ => j.compAnchors } }) ∧
  (∀ d : DropState, d = .planned ∨ d = .partly →
    dropAfter d .complete = .delivered ∧ dropAfter d .short = .partly ∧ dropAfter d .interrupted = .partly ∧
    dropAfter d .void = d) ∧
  (∀ (d : DropState) (x : Status), d = .delivered ∨ d = .skipped ∨ d = .cancelled → dropAfter d x = d)

/-- R71, R75 to R78, R82, R161, R189, R190, R192: what the commit of the other records does at its owner, and the reply: a
drop SKIPPED, restored to PLANNED or PARTIAL, CANCELLED, or added at the end of route order; a compartment loaded; a route
opened from the staged entries, or closed; the write of a setting or a table begun, the audit counter that the header
shows raised in force; a proving result taken. R85, R165, R189, R190: in SHUTDOWN a management record is applied to nothing
but the audit counters and, the AUDIT record of a CLEAR LOCKOUT, to the lockout, which ends (notes/assumptions/28.md); the
load mark stays set (notes/assumptions/62.md). -/
def Obligations.OtherCommitsTakeEffect : Prop :=
  ∀ (s : State) (r : Record) (block slot : Nat) (retry : Bool) (left : SlotLeft) (report : RetireReport) (a : Append),
    s.journal.busy = .programming a r block slot retry →
    let u := commitRecord r block slot s
    let run := exec (.recordProgramEnd true left report) s
    (s.power.state = .on → ∀ (st : Byte) (p : InProgress), a = .manage st r.body →
      s.req.inProgress.find? (fun q => q.station = st) = some p → Roomy s →
      let answered (v : State) (x : Result) : Prop :=
        ∃ t, run = .next t ∧ Answered t st p.seq p.code none x ∧ t.offLine = v.offLine
      let noted (n : Nat) (f : Drop → DropState) : State := { u with
        route := { s.route with drops := s.route.drops.map fun d =>
          if d.plan.number = n then { d with state := f d, noteMark := false } else d } }
      let zeroed : Comps := { s.comps with totals := List.replicate 8 {} }
      (∀ (b : NoteBody) (d : Drop), r.body = .dropNote b → dropOf s b.drop = some d →
        let restored (d : Drop) : DropState := if d.delivered = 0 then .planned else .partly
        (b.op = .skip → answered (noted b.drop fun _ => .skipped) (.dropState .skipped)) ∧
        (b.op = .restore → answered (noted b.drop restored) (.dropState (restored d))) ∧
        (b.op = .cancel → answered (noted b.drop fun _ => .cancelled) (.dropState .cancelled))) ∧
      (∀ (b : NoteBody) (y : Planning) (h : RouteHeader), r.body = .dropNote b → b.op = .add → b.plan = some y →
        y.number = b.drop → dropOf s b.drop = none → s.route.header = some h →
        answered { u with route := { s.route with
          header := some { h with count := h.count + 1 }
          drops := s.route.drops ++ [{ plan := y, position := s.route.drops.length + 1 }] } } (.dropState .planned)) ∧
      (∀ (l : LoadBody) (k : Comp), r.body = .load l → s.comps.list[l.comp - 1]? = some k →
        let full : Comp := { k with product := l.product, base := l.base, delivered := 0, loadMark := false }
        answered { u with comps := { s.comps with list := s.comps.list.set (l.comp - 1) full } }
          (.loaded r.seq { comp := full, available := l.base - k.reserved })) ∧
      (∀ (id count : Nat) (un : Bool) (ceil : Option Nat) (l : Load) (h : RouteHeader) (ds : List StagedDrop),
        r.body = .routeOpen id count un ceil → s.store.staging = .activating l →
        tableOf l.kind l.entries = some (.route h ds) →
        answered { u with
          route := { state := .opened, header := some h, drops := routeDrops 1 ds }, comps := zeroed
          store := { s.store with staging := .empty } } (.routeOpened h.id ds.length)) ∧
      (∀ b : RouteCloseBody, r.body = .routeClose b →
        answered { u with route := {}, comps := zeroed } (.routeClosed b)) ∧
      (∀ b : AuditBody, r.body = .audit b →
        let raised : State := { u with met := { s.met with cal := r.cal, cfg := r.cfg } }
        let counter := match b.counter with | .calibration => r.cal | .configuration => r.cfg
        (∀ (m : MetSetting) (v : Int), b.change = .setting m → b.new = .setting v →
          ∃ t, run = .next t ∧ p ∈ t.req.inProgress ∧ t.offLine = { raised.offLine with
            store := { s.store with settingsWrites := s.store.settingsWrites ++
              [{ station := st, change := .metrology m v, audit := some (r.seq, counter)
                 factor := b.provingSeq != 0 }] } }) ∧
        (b.change = .correction ∨ b.change = .nodeMap ∨ b.change = .station →
          ∃ t, run = .next t ∧ p ∈ t.req.inProgress ∧ t.offLine = { raised.offLine with
            store := { s.store with tableWrite := some { station := st, audit := some (r.seq, counter) } } }))) ∧
    (s.power.state = .on → ∀ (c : Chan) (b : ProvingBody), a = .close c → r.body = .proving b → s.ctl.clearing = none →
      let met := takeProving c r.seq b (pendingSound s c) s
      ∃ t, run = .next t ∧ t.met = met.met ∧ (t.ch c).ctx = { mode := (s.ch c).ctx.mode } ∧ t.route = s.route ∧
        t.comps = s.comps ∧ t.journal = u.journal ∧
        (pendingSound s c = true → provingResultOf t.met c =
          some { seq := r.seq, pulses := b.fwd - b.rev, temp := b.temp }) ∧
        (pendingSound s c = false → provingResultOf t.met c = none) ∧
        ∀ q, t.met.proposal = some q → q.chan ≠ c) ∧
    (s.power.state = .shutdown → s.journal.waiting ≠ [] → ∀ st, a = .manage st r.body →
      ∃ t, run = .next t ∧ t.offLine = { u.offLine with
        met := match r.body with
          | .audit _ => { s.met with cal := r.cal, cfg := r.cfg }
          | _ => s.met
        ctl := match r.body with
          | .audit b =>
            { s.ctl with lockout := if b.change = .lockoutClear then .none else s.ctl.lockout, alert := false }
          | _ => { s.ctl with alert := false } })

/-- R108, R149, R150, R173, R174: a failed program retires its block; a first failure is programmed again in slot 0 of
the fresh block; a second, or the lack of a fresh block, fails the append. A CLOSING context becomes FAULTED and its
requester is refused STORAGE; where a context was FAULTED before, the part enters a STORAGE lockout. R148: a failed RETRY
CLOSE clears the retry mark, is refused STORAGE, leaves the context FAULTED with its record and always enters lockout. R71,
R74, R82, R161, R189: a failed management append is refused STORAGE and its owner is as before it, and the part enters a
STORAGE lockout where a context is FAULTED. -/
def Obligations.FailedProgramsRetireRetryAndFault : Prop :=
  ∀ (s : State) (a : Append) (r : Record) (block slot : Nat) (retry : Bool) (left : SlotLeft) (report : RetireReport),
    s.power.state = .on → s.journal.busy = .programming a r block slot retry →
    let u := retire block .program (some slot) report (setSlot block slot (leftSlot r left) s)
    let run := exec (.recordProgramEnd false left report) s
    let asks (st : Byte) (p : InProgress) : Prop := s.req.inProgress.find? (fun q => q.station = st) = some p
    (∃ t, run = .next t ∧ t.journal.lastRetired = some (block, .program, s.journal.newestSeq) ∧
      (block < s.journal.blocks.length → blockState t block = .retired)) ∧
    (∀ b, retry = false → freshBlock u = some b → ∃ t x, run = .next t ∧
      t.journal.busy = .programming a x b 0 true ∧ x.body = r.body ∧ x.seq = s.journal.newestSeq + 1) ∧
    (∀ c, retry = true ∨ freshBlock u = none → a = .close c → (s.ch c).ctx.state = .closing →
      (anyFaulted s = false → ∃ t, run = .next t ∧ (t.ch c).ctx.state = .faulted ∧
        (t.ch c).ctx.pending = (s.ch c).ctx.pending ∧ t.ctl.lockout = s.ctl.lockout ∧
        t.ctl.faultOrder = s.ctl.faultOrder ++ [c]) ∧
      (anyFaulted s = true → s.ctl.lockout = .none → ∃ t, run = .next t ∧ t.ctl.lockout = .storage ∧
        ∀ d, (t.ch d).ctx.state = .idle ∨ (t.ch d).ctx.state = .faulted) ∧
      (∀ st p, s.ctl.clearing = none → (s.ch c).ctx.requester = some st → asks st p → Roomy s →
        ∃ t, run = .next t ∧ Answered t st p.seq p.code (some .storage) .nothing)) ∧
    (∀ c st p, retry = true ∨ freshBlock u = none → a = .close c → (s.ch c).ctx.state = .faulted →
      s.ctl.lockout = .none → s.ctl.clearing = none → (s.ch c).ctx.requester = some st → asks st p → AnswerRoom s →
      ∃ t, run = .next t ∧ Answered t st p.seq p.code (some .storage) .nothing ∧ t.ctl.lockout = .storage ∧
        (t.ch c).ctx = { (s.ch c).ctx with retryMark := false, requester := none }) ∧
    (∀ (st : Byte) (b : Body) (p : InProgress), retry = true ∨ freshBlock u = none → a = .manage st b → asks st p →
      AnswerRoom s → (∀ x, b = .audit x → x.change ≠ .lockoutClear) → (∀ n x, b ≠ .ticket n x) → (∀ x, b ≠ .proving x) →
      (anyFaulted s = true → s.ctl.lockout = .none → ∃ t, run = .next t ∧ t.ctl.lockout = .storage ∧
        Answered t st p.seq p.code (some .storage) .nothing) ∧
      (anyFaulted s = false ∨ s.ctl.lockout ≠ .none →
        let failed (v : State) : Prop := ∃ t, run = .next t ∧ Answered t st p.seq p.code (some .storage) .nothing ∧
          t.offLine = { v.offLine with nv := u.nv, journal := { u.journal with busy := .idle } }
        let refilled (l : Load) : State := { s with store := { s.store with staging := .filling l } }
        (∀ x, b = .dropNote x → failed { s with route := { s.route with drops := s.route.drops.map fun d =>
          if d.plan.number = x.drop then { d with noteMark := false } else d } }) ∧
        (∀ x, b = .load x → failed { s with comps := { s.comps with
          list := s.comps.list.modify (x.comp - 1) fun k => { k with loadMark := false } } }) ∧
        (∀ n m w x l, b = .routeOpen n m w x → s.store.staging = .activating l → failed (refilled l)) ∧
        (∀ x, b = .routeClose x → failed { s with route := { s.route with state := .opened } }) ∧
        (∀ x l, b = .audit x → (x.change = .correction ∨ x.change = .nodeMap ∨ x.change = .station) →
          s.store.staging = .activating l → failed (refilled l)) ∧
        (∀ x m, b = .audit x → x.change = .setting m → failed s)))

/-- R179: a drained mark that programs stands in its slot and in the index; one that does not is tried a second time,
and where that fails too the block is retired (R174), which is no append failure: contexts, lockout and requests in
flight at the owners stay, and the index takes no new entry. R176, R177: an erase takes only a block that holds nothing
still owed: every record in it is drained, below the route anchor and every compartment anchor, and neither the newest
record nor the newest ROUTE CLOSE; its records leave the index. At its end the block is ERASED, its erase count raised;
a failed one is retired. -/
def Obligations.MarksAndErases : Prop :=
  (∀ (s : State) (seq block slot : Nat) (second : Bool) (report : RetireReport), s.power.state = .on →
     s.journal.busy = .marking seq block slot second →
     (∃ t, exec (.drainedMarkEnd true report) s = .next t ∧
       t.nv = { s.nv with array := s.nv.array.modify block fun k => { k with slots := k.slots.modify slot markSlot } } ∧
       t.journal.index = s.journal.index.map (fun e => if e.seq = seq then { e with drained := true } else e) ∧
       t.journal.busy = .idle) ∧
     (second = false → ∃ t, exec (.drainedMarkEnd false report) s = .next t ∧
       t.offLine = { s.offLine with journal := { s.journal with busy := .marking seq block slot true } }) ∧
     (second = true → ∃ t, exec (.drainedMarkEnd false report) s = .next t ∧
       t.journal.lastRetired = some (block, .program, s.journal.newestSeq) ∧
       (block < s.journal.blocks.length → blockState t block = .retired) ∧ t.journal.busy = .idle ∧
       t.nv = (retire block .program none report s).nv ∧ (∀ e ∈ t.journal.index, e ∈ s.journal.index) ∧
       t.offLine = { s.offLine with nv := t.nv, journal := t.journal })) ∧
  ((∀ s t : State, s.journal.erasing = none → exec .eraseStart s = .next t →
     (∀ (b : Nat) (k : Block), t.journal.erasing = some b → s.nv.array[b]? = some k →
       s.power.state = .on ∧ s.journal.waiting = [] ∧ s.journal.busy = .idle ∧
       (blockState s b = .filled ∨ blockState s b = .unsettled) ∧
       (∀ (r : Record) (d : Bool), Slot.written r d ∈ k.slots → d = true ∧ r.seq ≠ s.journal.newestSeq ∧
         (∀ n, s.journal.routeAnchor = some n → r.seq < n) ∧ (∀ n, some n ∈ s.journal.compAnchors → r.seq < n) ∧
         ∀ e ∈ s.journal.index, e.kind = .routeClose →
           (∀ x ∈ s.journal.index, x.kind = .routeClose → x.seq ≤ e.seq) → r.seq ≠ e.seq) ∧
       (∀ e ∈ t.journal.index, e.block ≠ b))) ∧
   (∀ s : State, eraseReady s = true → (∃ b, eraseChoice s = some b) →
     ∃ t b, exec .eraseStart s = .next t ∧ t.journal.erasing = some b ∧
       t.offLine = { s.offLine with journal := t.journal }) ∧
   (∀ (s : State) (b : Nat) (i : BlockInfo) (markOk : Bool), s.power.state = .on → s.req.restart = none →
     s.journal.erasing = some b → s.journal.blocks[b]? = some i → i.erases < 65535 →
     (∃ t, exec (.eraseEnd true markOk) s = .next t ∧ t.offLine = { s.offLine with
       nv := { s.nv with array := s.nv.array.modify b fun _ => { erases := i.erases + 1 } }
       journal := { s.journal with
         erasing := none
         blocks := s.journal.blocks.modify b fun _ => { state := .erased, erases := i.erases + 1, writePoint := 0 } } }) ∧
     (∃ t, exec (.eraseEnd false markOk) s = .next t ∧ blockState t b = .retired ∧ t.journal.erasing = none ∧
       t.journal.lastRetired = some (b, .erase, s.journal.newestSeq))))

/-- R35, R39, R189, R194: at the end of the settings region's write the new setting, of the office or of metrology, is in
force, APPLY FACTOR's proposal is cleared, and the request is answered, with the AUDIT record's sequence and counter where
there was one; a failed write leaves the region failing its check and the value as it was, and is refused STORAGE. R40: the
supply is classed at once. What each setting changes. R35, R36: at the end of a table's write its content is in force, the
staging area empty and the request answered; a failed one leaves the region failing and is refused STORAGE, its content
staged. A new node map resets the channels whose nodes changed. R71: a route's write is followed by its ROUTE OPEN record,
or refused LOCKOUT. The model's own: which nodes count as changed (notes/assumptions/23.md), the numbers of the supply
system, the alert mask and raw echo (notes/assumptions/25.md), the LOCKOUT of an OPEN ROUTE write that ends in lockout
(notes/assumptions/26.md), and that a newer proposal is cleared too (notes/assumptions/63.md). -/
def Obligations.StoreWritesTakeEffect : Prop :=
  (∀ (s : State) (w : SettingsWrite) (rest : List SettingsWrite) (p : InProgress),
    s.power.state = .on → s.store.settingsWrites = w :: rest →
    s.req.inProgress.find? (fun q => q.station = w.station) = some p → AnswerRoom s →
    let new : Settings × MetSettings := match w.change with
      | .office k v => (changeSetting k v s.store.settings, s.store.metset)
      | .metrology m v => (s.store.settings, changeMet m v s.store.metset)
    let level := classLevel new.1 s.power.level s.pins.voltage
    let stored : State := { s with
      store := { s.store with settings := new.1, metset := new.2, settingsWrites := rest }
      nv := { s.nv with regions := { s.nv.regions with settings := some new } }
      met := if w.factor = true then { s.met with proposal := none } else s.met }
    (level = s.power.level → ∃ t, exec (.storeWriteEnd .settings true) s = .next t ∧
      Answered t w.station p.seq p.code none (match w.audit with | some x => .audited x.1 x.2 | none => .nothing) ∧
      t.offLine = stored.offLine) ∧
    (s.power.level = .normal → level = .low → ∃ t, exec (.storeWriteEnd .settings true) s = .next t ∧
      t.offLine = { stored.offLine with
        power := { s.power with level := .low, standby := none }
        chA := (handed stored .a [.supply] 0).offLine, chB := (handed stored .b [.supply] 0).offLine }) ∧
    (s.power.level = .low → level = .normal → ∃ t, exec (.storeWriteEnd .settings true) s = .next t ∧
      t.offLine = { stored.offLine with power := { s.power with level := .normal, standby := none } }) ∧
    (∃ t, exec (.storeWriteEnd .settings false) s = .next t ∧
      Answered t w.station p.seq p.code (some .storage) .nothing ∧ t.offLine = { s.offLine with
        store := { s.store with settingsWrites := rest }
        nv := { s.nv with regions := { s.nv.regions with settings := none } } })) ∧
  (∀ (x : Settings) (m : MetSettings) (v : Int),
    (changeSetting .printer v x = { x with printer := BitVec.ofNat 8 v.toNat } ∧
     changeSetting .cab v x = { x with cab := BitVec.ofNat 8 v.toNat } ∧
     changeSetting .settleQuiet v x = { x with settleQuiet := v.toNat } ∧
     changeSetting .settleLimit v x = { x with settleLimit := v.toNat } ∧
     changeSetting .creepLimit v x = { x with creepLimit := v.toNat } ∧
     changeSetting .standbyDelay v x = { x with standbyDelay := v.toNat } ∧
     changeSetting .supplySystem 12 x = { x with system := .v12 } ∧
     changeSetting .supplySystem 24 x = { x with system := .v24 } ∧
     changeSetting .lowLevel v x = { x with lowStep := v.toNat } ∧
     changeSetting .heelAllowance v x = { x with heel := v.toNat } ∧
     changeSetting .rawEcho 0 x = { x with rawEcho := false } ∧ changeSetting .rawEcho 1 x = { x with rawEcho := true }) ∧
    (let y := changeSetting .alertMask v x
     y = { x with maskCauses := y.maskCauses, maskLockout := v.toNat.testBit 10 } ∧
     ∀ c, c ∈ y.maskCauses ↔ v.toNat.testBit (rank c - 1) = true) ∧
    (changeMet .factorA v m = { m with factorA := v.toNat } ∧ changeMet .factorB v m = { m with factorB := v.toNat } ∧
     changeMet .offsetA v m = { m with offsetA := v } ∧ changeMet .offsetB v m = { m with offsetB := v } ∧
     changeMet .jumpLimit v m = { m with jumpLimit := v.toNat } ∧
     changeMet .reverseLimit v m = { m with reverseLimit := v.toNat })) ∧
  (∀ (s : State) (w : TableWrite) (l : Load) (p : InProgress), s.power.state = .on → s.store.tableWrite = some w →
    s.store.staging = .activating l → s.req.inProgress.find? (fun q => q.station = w.station) = some p →
    AnswerRoom s →
    let g := s.nv.regions
    let run (ok : Bool) := exec (.storeWriteEnd (.table l.kind) ok) s
    let ended (x : Staging) (store : Store) (g : Regions) : State :=
      { s with store := { store with staging := x, tableWrite := none }, nv := { s.nv with regions := g } }
    let works (u : State) : Prop := ∃ t, run true = .next t ∧ t.offLine = u.offLine ∧
      Answered t w.station p.seq p.code none (match w.audit with | some x => .audited x.1 x.2 | none => .nothing)
    let refused (ok : Bool) (r : RefCode) (g : Regions) : Prop := ∃ t, run ok = .next t ∧
      Answered t w.station p.seq p.code (some r) .nothing ∧ t.offLine = (ended (.filling l) s.store g).offLine
    (∀ es, tableOf l.kind l.entries = some (.products es) →
      works (ended .empty { s.store with products := some es } { g with products := some es }) ∧
      refused false .storage { g with products := none }) ∧
    (∀ es, tableOf l.kind l.entries = some (.prices es) →
      works (ended .empty { s.store with prices := some es } { g with prices := some es }) ∧
      refused false .storage { g with prices := none }) ∧
    (∀ es, tableOf l.kind l.entries = some (.curves es) →
      works (ended .empty { s.store with curves := some es } { g with curves := some es }) ∧
      refused false .storage { g with curves := none }) ∧
    (∀ es, tableOf l.kind l.entries = some (.programs es) →
      let programs := (List.range 8).map fun n =>
        match es.find? fun e => e.number = n with
        | some e => some e.program
        | none => if n = 0 then some factoryProgram0 else if n = 1 then some factoryProgram1 else none
      works (ended .empty { s.store with programs := programs } { g with programs := some es }) ∧
      refused false .storage { g with programs := none }) ∧
    (∀ es, tableOf l.kind l.entries = some (.stations es) →
      works (ended .empty { s.store with stations := some es } { g with stations := some es }) ∧
      refused false .storage { g with stations := none }) ∧
    (∀ es, tableOf l.kind l.entries = some (.nodes es) →
      let u := ended .empty { s.store with nodes := some es } { g with nodes := some es }
      let moved (c : Chan) (r : Role) : Bool := mapAddress (entriesOf s.store.nodes) c r != mapAddress es c r
      let reset (c : Chan) : Channel :=
        let x := s.ch c
        let y := { x with meter := { x.meter with
          baseline := if moved c .tally then none else x.meter.baseline
          probe := if moved c .probe then none else x.meter.probe
          vapour := if moved c .vapour then .unknown else x.meter.vapour
          reel := if moved c .reel then .unknown else x.meter.reel } }
        if moved c .valve then
          ordered u c .closed { y with gate := { y.gate with outstanding := none, timer := false } }
        else y
      works ((u.setCh .a (reset .a)).setCh .b (reset .b)) ∧ refused false .storage { g with nodes := none }) ∧
    (∀ h ds, tableOf l.kind l.entries = some (.route h ds) →
      refused false .storage { g with route := none } ∧
      (s.ctl.lockout ≠ .none → refused true .lockout { g with route := some (h, ds) }) ∧
      (s.ctl.lockout = .none → ∃ t, run true = .next t ∧ p ∈ t.req.inProgress ∧ t.offLine =
        (withAppend (ended s.store.staging s.store { g with route := some (h, ds) })
          (.manage w.station (.routeOpen h.id ds.length h.unplanned h.ceiling))).offLine)))

/-- R111, R178: a slot read answers READ RECORD with the record, its drained mark and whether its block is retired, or
REPRINT with a PRINT frame marked as a copy; a record no longer retained is NOT-FOUND; an unreadable slot is refused
STORAGE with its sequence and counted, and stays unreadable (the model's choice, notes/assumptions/13.md). Of several
reads the oldest is made (the model's choice, notes/assumptions/70.md). -/
def Obligations.SlotReadsAreAnswered : Prop :=
  ∀ (s : State) (x : Read) (rest : List Read) (p : InProgress), s.power.state = .on → s.journal.reads = x :: rest →
    s.journal.busy = .idle → s.journal.erasing = none →
    s.req.inProgress.find? (fun q => q.station = x.station) = some p → Roomy s →
    (∀ b, indexOf s x.seq = none → ∃ t, exec (.recordReadEnd b) s = .next t ∧
      Answered t x.station p.seq p.code (some .notFound) .nothing ∧
      t.offLine = { s.offLine with journal := { s.journal with reads := rest } }) ∧
    (∀ (e : IndexEntry) (r : Record) (d : Bool), indexOf s x.seq = some e → slotAt s e.block e.slot = .written r d →
      (x.reprint = false → ∃ t, exec (.recordReadEnd true) s = .next t ∧
        Answered t x.station p.seq p.code none (.record r d (blockState s e.block = .retired)) ∧
        t.offLine = { s.offLine with journal := { s.journal with reads := rest } }) ∧
      (∀ n tb, x.reprint = true → r.body = .ticket n tb → s.store.settings.printer ≠ 0 →
        (∀ f ∈ s.line.cwait, isPrintOf tb.chan f = false) → (s.ch tb.chan).heldPrint = none →
        ∃ t q, exec (.recordReadEnd true) s = .next t ∧ Answered t x.station p.seq p.code none .nothing ∧
          placedC t (.print q { chan := tb.chan, dst := s.store.settings.printer, record := r, copy := true
                                name := productName s tb.product }) ∧
          t.offLine = { s.offLine with journal := { s.journal with reads := rest } })) ∧
    (∀ e, indexOf s x.seq = some e → ∃ t, exec (.recordReadEnd false) s = .next t ∧
      Answered t x.station p.seq p.code (some .storage) (.sequence x.seq) ∧
      t.nv = (setSlot e.block e.slot .unreadable s).nv ∧
      t.journal = { s.journal with reads := rest, unreadableReads := s.journal.unreadableReads + 1 })

/-! ### Requests over the tables and the settings (R28 to R39, R188 to R194) -/

/-- R29, R30: BEGIN LOAD makes the staging area FILLING for the station, of the kind and the count, with nothing
received; LOAD PIECE from the holder appends whole entries of the kind from the first missing number on and answers
the count received; a piece that does not fit, or with an entry of another kind, is refused ARGUMENT with that count
(which refusals carry it, and the entry of another kind, are the model's choice, notes/assumptions/24.md). Nothing else
changes apart from the line. R29: a CORRECTION table begun outside METROLOGY class is refused CLASS, a kind that is none of
the seven or a count outside its range ARGUMENT, a staging area held by another station or ACTIVATING IN-USE; the ranges of
the seven kinds. -/
def Obligations.StagingIsFilled : Prop :=
  (∀ n : Nat,
    (countInRange .product n = true ↔ 1 ≤ n ∧ n ≤ 8) ∧ (countInRange .price n = true ↔ 1 ≤ n ∧ n ≤ 8) ∧
    (countInRange .correction n = true ↔ 1 ≤ n ∧ n ≤ 4) ∧ (countInRange .stopProgram n = true ↔ n ≤ 8) ∧
    (countInRange .nodeMap n = true ↔ n ≤ 10) ∧ (countInRange .station n = true ↔ 1 ≤ n ∧ n ≤ 4) ∧
    (countInRange .route n = true ↔ 1 ≤ n ∧ n ≤ 97)) ∧
  ∀ (s : State) (st q : Byte) (k : Cls), Admitted s st k .office → s.ctl.lockout = .none →
    (∀ (kind : TableKind) (n : Nat), (kind = .correction → actingClass s k = .metrology) → countInRange kind n = true →
      (s.store.staging = .empty ∨ ∃ l, s.store.staging = .filling l ∧ l.holder = st) →
      ∃ t, exec (.beginLoad st q (some kind) n) s = .next t ∧ Answered t st q 0x30 none .nothing ∧
        t.offLine = { s.offLine with store := { s.store with
          staging := .filling { holder := st, kind := kind, declared := n, entries := [] } } }) ∧
    (let refused (kind : Option TableKind) (n : Nat) (r : RefCode) : Prop :=
       ∃ t, exec (.beginLoad st q kind n) s = .next t ∧ Answered t st q 0x30 (some r) .nothing ∧ t.offLine = s.offLine
     (∀ n, actingClass s k ≠ .metrology → refused (some .correction) n .cls) ∧ (∀ n, refused none n .argument) ∧
     ∀ (kind : TableKind) (n : Nat), (kind = .correction → actingClass s k = .metrology) →
       (countInRange kind n = false → refused (some kind) n .argument) ∧
       (countInRange kind n = true →
         ((∃ l, s.store.staging = .filling l ∧ l.holder ≠ st) ∨ ∃ l, s.store.staging = .activating l) →
         refused (some kind) n .inUse)) ∧
    (∀ (l : Load) (first : Nat) (es : List Entry) (ragged : Bool), s.store.staging = .filling l → l.holder = st →
      (ragged = false → es ≠ [] → (∀ e ∈ es, entryKind e = l.kind) → first = l.entries.length →
        l.entries.length + es.length ≤ l.declared →
        ∃ t, exec (.loadPiece st q first es ragged) s = .next t ∧
          Answered t st q 0x31 none (.received (l.entries.length + es.length)) ∧
          t.offLine = { s.offLine with store := { s.store with
            staging := .filling { l with entries := l.entries ++ es } } }) ∧
      (ragged = true ∨ es = [] ∨ (∃ e ∈ es, entryKind e ≠ l.kind) ∨ first ≠ l.entries.length ∨
          l.declared < l.entries.length + es.length →
        ∃ t, exec (.loadPiece st q first es ragged) s = .next t ∧
          Answered t st q 0x31 (some .argument) (.received l.entries.length) ∧ t.offLine = s.offLine))

/-- R31: ABANDON, of OFFICE class and taken from any station whose class suffices, is refused STATE with the staging
area EMPTY, refused BUSY with it ACTIVATING, and otherwise empties it; it is served in lockout. With places free no
other station is sent a reply. A later LOAD PIECE or ACTIVATE is refused STATE, or IN-USE where another station holds
the staging area. -/
def Obligations.AbandonEmptiesStaging : Prop :=
  requiredClass 0x33 = some .office ∧
  ∀ (s : State) (st q : Byte) (k : Cls), Admitted s st k .office →
    (s.store.staging = .empty → ∃ t, exec (.abandon st q) s = .next t ∧
      Answered t st q 0x33 (some .state) .nothing ∧ t.offLine = s.offLine) ∧
    (∀ l, s.store.staging = .activating l → ∃ t, exec (.abandon st q) s = .next t ∧
      Answered t st q 0x33 (some .busy) .nothing ∧ t.offLine = s.offLine) ∧
    (∀ l, s.store.staging = .filling l → ∃ t, exec (.abandon st q) s = .next t ∧
      Answered t st q 0x33 none .nothing ∧
      t.offLine = { s.offLine with store := { s.store with staging := .empty } } ∧
      (Roomy s → ∀ r : Reply, placedC t (.reply r) → r.dst = st ∨ placedC s (.reply r))) ∧
    (s.ctl.lockout = .none →
      let refused (r : RefCode) : Prop :=
        (∀ first es ragged, ∃ t, exec (.loadPiece st q first es ragged) s = .next t ∧
          Answered t st q 0x31 (some r) .nothing ∧ t.offLine = s.offLine) ∧
        ∃ t, exec (.activate st q) s = .next t ∧ Answered t st q 0x32 (some r) .nothing ∧ t.offLine = s.offLine
      (s.store.staging = .empty → refused .state) ∧
      (∀ l, s.store.staging = .filling l → l.holder ≠ st → refused .inUse))

/-- R35, R70, R71, R189: an ACTIVATE or an OPEN ROUTE whose checks pass makes the staging area ACTIVATING and begins
the write of the region; an ACTIVATE that changes metrology entries hands its AUDIT record instead, with the entry count
and the check of the active and of the staged table. R33: a CORRECTION table always changes them, a node map by its TALLY
and PROBE entries, a station table by its METROLOGY entries. The request waits. R39: a WRITE SETTING of a setting in its
range, and not to a node's address, waits for the write of the settings region; one out of range, or to a node's address,
is refused ARGUMENT. The ranges of the eleven settings; how the supply system, the alert mask and raw echo are written as
numbers is the model's choice, notes/assumptions/25.md. That an EMPTY active table counts 0 entries with the check of no
bytes, and that staged entries are taken in the order staged, is the model's reading, notes/assumptions/46.md. R32, R69: an
ACTIVATE of a ROUTE, and an OPEN ROUTE of another kind, is refused STATE; fewer entries than declared, an unreadable one,
or a table that fails its checks, TABLE; a metrology change outside METROLOGY class CLASS; a use condition that fails
IN-USE. R6, R24 to R27, R33, R66, R70: the checks of each kind; R34: the use condition. -/
def Obligations.TableAndSettingWritesBegin : Prop :=
  (∀ (s : State) (st q : Byte) (k : Cls) (l : Load), Admitted s st k .office → s.ctl.lockout = .none →
     s.store.staging = .filling l → l.holder = st →
     let kept (i : Instr) (code : Byte) (r : RefCode) : Prop :=
       ∃ t, exec i s = .next t ∧ Answered t st q code (some r) .nothing ∧ t.offLine = s.offLine
     let unfit : Prop := l.entries.length ≠ l.declared ∨ tableOf l.kind l.entries = none ∨
       ∃ d, tableOf l.kind l.entries = some d ∧ tableChecks s d = false
     (l.kind = .route → kept (.activate st q) 0x32 .state) ∧
     (l.kind ≠ .route → (unfit → kept (.activate st q) 0x32 .table) ∧
       (l.entries.length = l.declared → ∀ d, tableOf l.kind l.entries = some d → tableChecks s d = true →
         (metrologyChange s d = true → actingClass s k ≠ .metrology → kept (.activate st q) 0x32 .cls) ∧
         ((metrologyChange s d = true → actingClass s k = .metrology) →
           (useCondition s d = false → kept (.activate st q) 0x32 .inUse) ∧
           (useCondition s d = true → metrologyChange s d = true → accepts s = false →
             kept (.activate st q) 0x32 .journalFull)))) ∧
     (s.route.state ≠ .none ∨ l.kind ≠ .route → kept (.openRoute st q) 0x20 .state) ∧
     (s.route.state = .none → l.kind = .route → (unfit → kept (.openRoute st q) 0x20 .table) ∧
       (¬ unfit → accepts s = false → kept (.openRoute st q) 0x20 .journalFull))) ∧
  (∀ s : State,
     let idle (c : Chan) : Prop := (s.ch c).ctx.state = .idle
     let same (l : List NodeEntry) (c : Chan) : Prop :=
       ∀ e : NodeEntry, e.chan = c → (e ∈ l ↔ e ∈ entriesOf s.store.nodes)
     (∀ l, useCondition s (.products l) = true ↔ idle .a ∧ idle .b) ∧
     (∀ l, useCondition s (.prices l) = true ↔ idle .a ∧ idle .b) ∧
     (∀ l, useCondition s (.curves l) = true ↔ idle .a ∧ idle .b) ∧
     (∀ l, useCondition s (.programs l) = true ↔ idle .a ∧ idle .b) ∧
     (∀ l, useCondition s (.nodes l) = true ↔ (same l .a ∨ idle .a) ∧ (same l .b ∨ idle .b)) ∧
     (∀ l, useCondition s (.stations l) = true)) ∧
  (∀ s : State,
     let within (low n high : Nat) : Prop := low ≤ n ∧ n ≤ high
     let text (n : Nat) (x : List Byte) : Prop := x.length = n ∧ ∀ b ∈ x, within 0x20 b.toNat 0x7e
     let watched (w : Watch) : Prop := w.persistence ≤ 255 ∧
       (w.quantity = .net ∨ w.quantity = .gross → w.value ≤ 999900) ∧
       (w.quantity = .rate → w.value ≤ 2000 ∧ w.reference = .absolute) ∧
       (w.quantity = .amount → w.value ≤ 9999999 ∧ w.reference = .absolute)
     let product (n : Nat) : Prop := (∃ d ∈ s.route.drops, d.plan.product = n) ∨
       (∃ p ∈ additionsInFlight s, p.product = n) ∨ (n ≠ 0 ∧ ∃ k ∈ s.comps.list, k.product = n) ∨ n ∈ loadsInFlight s
     let program (n : Nat) : Prop := (∃ d ∈ s.route.drops, d.plan.program = n) ∨ ∃ p ∈ additionsInFlight s, p.program = n
     let written (a : Byte) : Prop := ∃ w ∈ s.store.settingsWrites, ∃ v,
       (w.change = .office .printer v ∨ w.change = .office .cab v) ∧ v.toNat = a.toNat
     (∀ l, tableChecks s (.products l) = true ↔ (l.map ProductEntry.code).Nodup ∧
       (∀ e ∈ l, within 1 e.code 8 ∧ text 12 e.name ∧ e.curve ≤ 3 ∧ e.startSlow ≤ 50 ∧ e.overrun ≤ 20 ∧
         e.minDelivery ≤ 500 ∧ e.fee ≤ 99999 ∧ e.tax ≤ 3000 ∧ (∃ k ∈ entriesOf s.store.curves, k.number = e.curve) ∧
         ∀ ps, s.store.prices = some ps → ∃ p ∈ ps, p.code = e.code) ∧
       ∀ n, product n → ∃ e ∈ l, e.code = n) ∧
     (∀ l, tableChecks s (.prices l) = true ↔ (l.map PriceList.code).Nodup ∧
       (∀ e ∈ l, within 1 e.code 8 ∧ within 1 e.tiers.length 4 ∧ e.tiers.head?.map Tier.fromVolume = some 0 ∧
         (e.tiers.map Tier.fromVolume).Pairwise (· < ·) ∧
         ∀ t ∈ e.tiers, t.fromVolume ≤ 99999 ∧ within 1 t.unitPrice 99999) ∧
       ∀ e ∈ entriesOf s.store.products, ∃ p ∈ l, p.code = e.code) ∧
     (∀ l, tableChecks s (.curves l) = true ↔ (l.map Curve.number).Nodup ∧
       (∀ e ∈ l, e.number ≤ 3 ∧ e.factors.length = 16 ∧ ∀ v ∈ e.factors, within 9500 v 10500) ∧
       ∀ e ∈ entriesOf s.store.products, ∃ k ∈ l, k.number = e.curve) ∧
     (∀ l, tableChecks s (.programs l) = true ↔ (l.map ProgramEntry.number).Nodup ∧
       (∀ e ∈ l, e.number ≤ 7 ∧ watched e.program.watchA ∧ watched e.program.watchB) ∧
       ∀ n, program n → n = 0 ∨ n = 1 ∨ ∃ e ∈ l, e.number = n) ∧
     (∀ l, tableChecks s (.nodes l) = true ↔ (l.map NodeEntry.address).Nodup ∧
       (l.map fun e => (e.chan, e.role)).Nodup ∧
       ∀ e ∈ l, within 1 e.address.toNat 126 ∧ within 100 e.silence 2000 ∧
         (∀ x ∈ entriesOf s.store.stations, x.address ≠ e.address) ∧ s.store.settings.printer ≠ e.address ∧
         s.store.settings.cab ≠ e.address ∧ ¬ written e.address) ∧
     (∀ l, tableChecks s (.stations l) = true ↔ (l.map StationEntry.address).Nodup ∧
       (∀ e ∈ l, within 1 e.address.toNat 126 ∧ ∀ n ∈ entriesOf s.store.nodes, n.address ≠ e.address) ∧
       ∃ e ∈ l, e.cls ≠ .driver) ∧
     (∀ h l, tableChecks s (.route h l) = true ↔ (l.map StagedDrop.number).Nodup ∧ within 1 h.id 4294967295 ∧
       h.count = l.length ∧ (∀ n, h.ceiling = some n → n ≤ 99999999) ∧ ∀ d ∈ l, dropOk s d = true) ∧
     (∀ d : StagedDrop, dropOk s d = true ↔ within 1 d.number 9999 ∧ text 10 d.account ∧ within 1 d.product 8 ∧
       (∀ n, d.preset = some n → within 1 n 99999) ∧ (∀ n, d.ullage = some n → within 1 n 99999) ∧
       (∀ n, d.ceiling = some n → n ≤ 99999999) ∧ (∀ n, d.adjustment = some n → -9999 ≤ n ∧ n ≤ 9999) ∧
       (∀ n, d.program = some n → n ≤ 7) ∧ (d.kind = .preset ↔ d.preset.isSome = true) ∧
       (∃ e ∈ entriesOf s.store.products, e.code = d.product) ∧
       (programOf s (match d.program, d.kind with | some n, _ => n | none, .preset => 0 | none, .fill => 1)).isSome)) ∧
  (∀ (s : State) (st q : Byte) (k : Cls) (l : Load) (d : TableData), Admitted s st k .office →
     s.ctl.lockout = .none → s.store.staging = .filling l → l.holder = st → l.entries.length = l.declared →
     tableOf l.kind l.entries = some d → tableChecks s d = true →
     (l.kind ≠ .route → metrologyChange s d = false → useCondition s d = true →
       ∃ t, exec (.activate st q) s = .next t ∧ Waits t st 0x32 q (actingClass s k) ∧
         t.offLine = { s.offLine with store := { s.store with
           staging := .activating l, tableWrite := some { station := st, audit := none } } }) ∧
     (metrologyChange s d = true → actingClass s k = .metrology → useCondition s d = true → accepts s = true →
       let active : List Entry := match l.kind with
         | .correction => (entriesOf s.store.curves).map .correction
         | .nodeMap => (entriesOf s.store.nodes).map .nodeMap
         | _ => (entriesOf s.store.stations).map .station
       let counted (es : List Entry) : AuditValue := .table es.length (check16 (es.flatMap Config.entryBytes))
       let change : Change × AuditCounter := match l.kind with
         | .correction => (.correction, .calibration)
         | .nodeMap => (.nodeMap, .configuration)
         | _ => (.station, .configuration)
       ∃ t, exec (.activate st q) s = .next t ∧ Waits t st 0x32 q .metrology ∧
         t.offLine = { s.offLine with
           store := { s.store with staging := .activating l }
           journal := { s.journal with waiting := s.journal.waiting ++ [.manage st (.audit
             { change := change.1, counter := change.2, station := st, old := counted active
               new := counted l.entries, provingSeq := 0, observed := 0, committed := 0 })] } }) ∧
     (l.kind = .route → s.route.state = .none → accepts s = true →
       ∃ t, exec (.openRoute st q) s = .next t ∧ Waits t st 0x20 q (actingClass s k) ∧
         t.offLine = { s.offLine with store := { s.store with
           staging := .activating l, tableWrite := some { station := st, audit := none } } })) ∧
  (∀ s : State, (∀ l, metrologyChange s (.curves l) = true) ∧
     (∀ l, metrologyChange s (.nodes l) = false ↔ ∀ e : NodeEntry, e.role = .tally ∨ e.role = .probe →
       (e ∈ l ↔ e ∈ entriesOf s.store.nodes)) ∧
     (∀ l, metrologyChange s (.stations l) = false ↔ ∀ e : StationEntry, e.cls = .metrology →
       (e ∈ l ↔ e ∈ entriesOf s.store.stations))) ∧
  (∀ (s : State) (st q : Byte) (k : Cls) (x : Setting) (v : Int), Admitted s st k .office → s.ctl.lockout = .none →
     (settingInRange x v = true → settingAddressOk s x v = true →
       ∃ t, exec (.writeSetting st q (some x) v) s = .next t ∧ Waits t st 0x34 q (actingClass s k) ∧
         t.offLine = { s.offLine with store := { s.store with settingsWrites := s.store.settingsWrites ++
           [{ station := st, change := .office x v, audit := none, factor := false }] } }) ∧
     (settingInRange x v = false ∨ settingAddressOk s x v = false →
       ∃ t, exec (.writeSetting st q (some x) v) s = .next t ∧
         Answered t st q 0x34 (some .argument) .nothing ∧ t.offLine = s.offLine) ∧
     (∃ t, exec (.writeSetting st q none v) s = .next t ∧
       Answered t st q 0x34 (some .argument) .nothing ∧ t.offLine = s.offLine) ∧
     (x ≠ .printer → x ≠ .cab → settingAddressOk s x v = true) ∧
     (x = .printer ∨ x = .cab → (∀ l, s.store.staging ≠ .activating l) →
       (settingAddressOk s x v = true ↔ ∀ e ∈ entriesOf s.store.nodes, e.address ≠ BitVec.ofNat 8 v.toNat))) ∧
  (∀ v : Int,
     (settingInRange .printer v = true ↔ 0 ≤ v ∧ v ≤ 126) ∧ (settingInRange .cab v = true ↔ 0 ≤ v ∧ v ≤ 126) ∧
     (settingInRange .settleQuiet v = true ↔ 500 ≤ v ∧ v ≤ 5000) ∧
     (settingInRange .settleLimit v = true ↔ 5 ≤ v ∧ v ≤ 60) ∧
     (settingInRange .creepLimit v = true ↔ 1 ≤ v ∧ v ≤ 500) ∧
     (settingInRange .standbyDelay v = true ↔ 0 ≤ v ∧ v ≤ 255) ∧
     (settingInRange .supplySystem v = true ↔ v = 12 ∨ v = 24) ∧
     (settingInRange .lowLevel v = true ↔ 1 ≤ v ∧ v ≤ 4) ∧
     (settingInRange .heelAllowance v = true ↔ 0 ≤ v ∧ v ≤ 100) ∧
     (settingInRange .alertMask v = true ↔ 0 ≤ v ∧ v ≤ 2047) ∧ (settingInRange .rawEcho v = true ↔ v = 0 ∨ v = 1))

/-- R188, R189, R193, R194: a metrology setting that has the value already is answered with the calibration counter,
and a new value hands an AUDIT record; one out of its range is refused ARGUMENT, and the ranges of the six; PROVING RESULT
stores the proposal, observed volume times 10000 over the pulses, or refuses ARGUMENT with the factor outside 9000 to
11000; APPLY FACTOR hands the AUDIT record that names the proving, or only clears a proposal that is in force already. -/
def Obligations.MetrologyRequestsAct : Prop :=
  (∀ (s : State) (st q : Byte) (k : Cls), Admitted s st k .metrology → s.ctl.lockout = .none →
    (∀ (x : MetSetting) (v : Int), metInRange x v = true → accepts s = true →
      (metValue s.store.metset x = v → ∃ t, exec (.writeMetrologySetting st q (some x) v) s = .next t ∧
        Answered t st q 0x50 none (.counter s.met.cal) ∧ t.offLine = s.offLine) ∧
      (metValue s.store.metset x ≠ v → ∃ t, exec (.writeMetrologySetting st q (some x) v) s = .next t ∧
        Waits t st 0x50 q .metrology ∧ t.offLine = (withAppend s (.manage st (.audit
          { change := .setting x, counter := .calibration, station := st
            old := .setting (metValue s.store.metset x), new := .setting v
            provingSeq := 0, observed := 0, committed := 0 }))).offLine)) ∧
    (∀ (x : MetSetting) (v : Int), metInRange x v = false →
      ∃ t, exec (.writeMetrologySetting st q (some x) v) s = .next t ∧
        Answered t st q 0x50 (some .argument) .nothing ∧ t.offLine = s.offLine) ∧
    (∀ (c : Chan) (r : ProvingResult) (n : Nat), provingResultOf s.met c = some r → 1 ≤ n → n ≤ 999999 →
      let f := n * 10000 / r.pulses
      (9000 ≤ f → f ≤ 11000 → ∃ t, exec (.provingResult st q (some c) n) s = .next t ∧
        Answered t st q 0x52 none (.proposed f (factorInForce s.store.metset c) r.pulses r.temp r.seq) ∧
        t.offLine = { s.offLine with met := { s.met with
          proposal := some { chan := c, factor := f, seq := r.seq, observed := n } } }) ∧
      (f < 9000 ∨ 11000 < f → ∃ t, exec (.provingResult st q (some c) n) s = .next t ∧
        Answered t st q 0x52 (some .argument) (.computed f) ∧ t.offLine = s.offLine)) ∧
    (∀ p : Proposal, s.met.proposal = some p → (∀ x ∈ s.req.inProgress, x.code ≠ 0x53) → accepts s = true →
      (factorInForce s.store.metset p.chan = p.factor → ∃ t, exec (.applyFactor st q) s = .next t ∧
        Answered t st q 0x53 none .nothing ∧
        t.offLine = { s.offLine with met := { s.met with proposal := none } }) ∧
      (factorInForce s.store.metset p.chan ≠ p.factor → ∃ t, exec (.applyFactor st q) s = .next t ∧
        Waits t st 0x53 q .metrology ∧ t.offLine = (withAppend s (.manage st (.audit
          { change := .setting (match p.chan with | .a => .factorA | .b => .factorB)
            counter := .calibration, station := st, old := .setting (factorInForce s.store.metset p.chan)
            new := .setting p.factor, provingSeq := p.seq, observed := p.observed, committed := 0 }))).offLine))) ∧
  (∀ v : Int,
    (metInRange .factorA v = true ↔ 9000 ≤ v ∧ v ≤ 11000) ∧ (metInRange .factorB v = true ↔ 9000 ≤ v ∧ v ≤ 11000) ∧
    (metInRange .offsetA v = true ↔ -20 ≤ v ∧ v ≤ 20) ∧ (metInRange .offsetB v = true ↔ -20 ≤ v ∧ v ≤ 20) ∧
    (metInRange .jumpLimit v = true ↔ 200 ≤ v ∧ v ≤ 5000) ∧ (metInRange .reverseLimit v = true ↔ 0 ≤ v ∧ v ≤ 1000))

/-! ### Requests over the route and the compartments (R74 to R82, R160) -/

/-- R74, R75, R76, R78: SKIP of a PLANNED or PARTIAL drop, RESTORE of a SKIPPED one and CANCEL DROP of a PLANNED one
never served, unclaimed, unmarked and in an OPEN route, set the note mark and hand a DROP NOTE record; the request
waits. A drop in another state is refused STATE. -/
def Obligations.DropNotesAreHanded : Prop :=
  ∀ (s : State) (st q : Byte) (k : Cls) (before after : List Drop) (d : Drop), s.ctl.lockout = .none →
    s.route.state = .opened → s.route.drops = before ++ d :: after →
    (∀ e ∈ before ++ after, e.plan.number ≠ d.plan.number) → d.claimant = none → d.noteMark = false →
    accepts s = true →
    let waits (t : State) (code : Byte) (op : NoteOp) : Prop := Waits t st code q (actingClass s k) ∧
      t.offLine = { s.offLine with
        route := { s.route with drops := before ++ { d with noteMark := true } :: after }
        journal := { s.journal with waiting := s.journal.waiting ++ [.manage st (.dropNote
          { op := op, drop := d.plan.number, routeId := (s.route.header.map RouteHeader.id).getD 0, plan := none })] } }
    let refused (i : Instr) (code : Byte) : Prop := ∃ t, exec i s = .next t ∧
      Answered t st q code (some .state) .nothing ∧ t.offLine = s.offLine
    (Admitted s st k .driver →
      ((d.state = .planned ∨ d.state = .partly) → ∃ t, exec (.skip st q d.plan.number) s = .next t ∧ waits t 0x24 .skip) ∧
      (d.state ≠ .planned → d.state ≠ .partly → refused (.skip st q d.plan.number) 0x24) ∧
      (d.state = .skipped → ∃ t, exec (.restore st q d.plan.number) s = .next t ∧ waits t 0x25 .restore) ∧
      (d.state ≠ .skipped → refused (.restore st q d.plan.number) 0x25)) ∧
    (Admitted s st k .office →
      (d.state = .planned → d.tickets = [] → ∃ t, exec (.cancelDrop st q d.plan.number) s = .next t ∧
        waits t 0x27 .cancel) ∧
      (d.state ≠ .planned ∨ d.tickets ≠ [] → refused (.cancelDrop st q d.plan.number) 0x27))

/-- R77, R81, R82, R160: ADD DROP hands a DROP NOTE record with the new drop's planning fields: the FULL form from an
OFFICE station, the SHORT form, which gives a FILL drop without limits under the route's ceiling, from a DRIVER station
too where the route allows it; a DRIVER station is otherwise refused CLASS, an undefined drop kind ARGUMENT. CLOSE ROUTE
makes the route CLOSING and hands its ROUTE CLOSE record, with the totals and the number of drops in each state; LOAD
COMPARTMENT sets the load mark and hands a LOAD record with the new base, in the three cases of its table. The requests
wait. That ADD DROP and LOAD COMPARTMENT are judged by the tables in force also while an activation writes is the
model's choice, notes/assumptions/68.md. -/
def Obligations.AdditionsClosesAndLoadsAreHanded : Prop :=
  ∀ (s : State) (st q : Byte) (k : Cls), s.ctl.lockout = .none → accepts s = true →
    let added (form : AddForm) (y : Planning) : Prop :=
      ∃ t, exec (.addDrop st q form) s = .next t ∧ Waits t st 0x26 q (actingClass s k) ∧
        t.offLine = (withAppend s (.manage st (.dropNote
          { op := .add, drop := y.number, routeId := (s.route.header.map RouteHeader.id).getD 0
            plan := some y }))).offLine
    let fresh (n : Nat) : Prop := s.route.drops.length + (additionsInFlight s).length < 96 ∧
      (∀ e ∈ s.route.drops, e.plan.number ≠ n) ∧ ∀ p ∈ additionsInFlight s, p.number ≠ n
    let refused (form : AddForm) (r : RefCode) : Prop := ∃ t, exec (.addDrop st q form) s = .next t ∧
      Answered t st q 0x26 (some r) .nothing ∧ t.offLine = s.offLine
    (∀ d : StagedDrop, Admitted s st k .driver → actingClass s k ≠ .driver → s.route.state = .opened → dropOk s d = true →
      fresh d.number → added (.full d) (planOf d)) ∧
    (∀ (h : RouteHeader) (n product : Nat) (account : List Byte), Admitted s st k .driver → s.route.state = .opened →
      s.route.header = some h → (actingClass s k = .driver → h.unplanned = true) →
      dropOk s { number := n, account := account, product := product, kind := .fill, preset := none, ullage := none
                 ceiling := h.ceiling, adjustment := none, program := some 1 } = true →
      fresh n → added (.short n account product)
        { number := n, account := account, product := product, kind := .fill, preset := none, ullage := none
          ceiling := h.ceiling, adjustment := 0, program := 1 }) ∧
    (∀ form : AddForm, Admitted s st k .driver → actingClass s k = .driver → s.route.state = .opened →
      ((∀ n account product, form ≠ .short n account product) ∨ ∀ h, s.route.header = some h → h.unplanned = false) →
      refused form .cls) ∧
    (Admitted s st k .driver → actingClass s k ≠ .driver → s.route.state = .opened → refused .illCoded .argument) ∧
    (Admitted s st k .office → s.route.state = .opened → s.chA.ctx.state = .idle → s.chB.ctx.state = .idle →
      (∀ d ∈ s.route.drops, d.noteMark = false) → additionsInFlight s = [] →
      ∃ t b, exec (.closeRoute st q) s = .next t ∧ Waits t st 0x21 q (actingClass s k) ∧
        b.routeId = (s.route.header.map RouteHeader.id).getD 0 ∧ b.totals = s.comps.totals ∧
        (let count (x : DropState) : Nat := (s.route.drops.filter fun d => decide (d.state = x)).length
         b.counts = { planned := count .planned, partly := count .partly, delivered := count .delivered
                      skipped := count .skipped, cancelled := count .cancelled }) ∧
        t.offLine = { s.offLine with
          route := { s.route with state := .closing }
          journal := { s.journal with waiting := s.journal.waiting ++ [.manage st (.routeClose b)] } }) ∧
    (∀ (n product litres : Nat) (x : Comp), Admitted s st k .office → s.comps.list[n - 1]? = some x → 1 ≤ n → n ≤ 4 →
      1 ≤ product → product ≤ 8 → (productOf s product).isSome → 1 ≤ litres → litres ≤ 20000 → x.loadMark = false →
      x.reserved = 0 →
      let left := x.base - x.delivered
      let handed (writtenOff base : Nat) : Prop :=
        ∃ t, exec (.loadCompartment st q n product litres) s = .next t ∧ Waits t st 0x48 q (actingClass s k) ∧
          t.offLine = { s.offLine with
            comps := { s.comps with list := s.comps.list.modify (n - 1) fun y => { y with loadMark := true } }
            journal := { s.journal with waiting := s.journal.waiting ++ [.manage st (.load
              { comp := n, product := product, prevProduct := x.product, prevBase := x.base
                prevDelivered := x.delivered, added := litres * 100, writtenOff := writtenOff, base := base })] } }
      let turnedAway : Prop := ∃ t, exec (.loadCompartment st q n product litres) s = .next t ∧
        Answered t st q 0x48 (some .argument) .nothing ∧ t.offLine = s.offLine
      (x.product = 0 → handed 0 (litres * 100)) ∧
      (x.product = product → left + litres * 100 ≤ 2000000 → handed 0 (left + litres * 100)) ∧
      (x.product = product → 2000000 < left + litres * 100 → turnedAway) ∧
      (x.product ≠ product → x.product ≠ 0 →
        (left ≤ s.store.settings.heel * 100 → handed left (litres * 100)) ∧
        (s.store.settings.heel * 100 < left → turnedAway)))

/-! ### Requests over tickets (R88 to R99, R143 to R148, R152, R191) -/

/-- R72, R88 to R91, R155: OPEN TICKET on an IDLE channel whose checks pass claims the drop, reserves the authorised
volume and the overrun in the compartment, arms the channel, hands the causes of the opening, and answers the two
volumes and the stop program. R89: the authorised volume is the smallest of the bounds that are present, and the credit
volume the greatest number of litres whose amount fits under the ceiling. R43, R121, R138: the opening hands AIR where
the vapour state is VAPOUR, SUPPLY where the supply is LOW, VALVE where the miss mark is set, and no other cause. R191:
OPEN PROVING arms the channel in mode PROVING with the target for its volume. Each is one step, as the model reads the
rules, notes/assumptions/22.md. -/
def Obligations.TicketsAreOpened : Prop :=
  (∀ (s : State) (st q : Byte) (k : Cls) (c : Chan), Roomy s → s.ctl.lockout = .none → (s.ch c).ctx.state = .idle →
    (s.ch c).heldPrint = none → barred s c = false → complete s c = true → accepts s = true →
    let stamped (x : Ctx) : Ctx := { x with
      openTime := s.power.clock, openUnset := s.power.unset, flags := { x.flags with clockUnset := s.power.unset } }
    (∀ (n : Nat) (d : Drop), Admitted s st k .driver → s.pins.switchOpen = false → s.store.products.isSome →
      s.store.prices.isSome → s.route.state = .opened → dropOf s d.plan.number = some d → 1 ≤ d.plan.number →
      d.plan.number ≤ 9999 → 1 ≤ n → n ≤ 4 → d.state = .planned ∨ d.state = .partly → d.claimant = none →
      d.noteMark = false → d.tickets.length < 3 → dropServed s d = true → (compOf s n).product = d.plan.product →
      let volume := openAuthorised s d n
      let reserved := volume + overrunOf s d.plan.product * 100
      100 ≤ volume →
      let x := stamped { (s.ch c).ctx with
        mode := .delivery, comp := some n, product := some d.plan.product
        drop := some { plan := d.plan, routeId := (s.route.header.map RouteHeader.id).getD 0 }
        authorised := volume, reservation := reserved, baseVolume := d.delivered, baseAmount := d.amount }
      let u := s.setCh c (armedWith s c x)
      ∃ t, exec (.openTicket st q d.plan.number (some c) n) s = .next t ∧
        Answered t st q 0x10 none (.opened volume reserved d.plan.program) ∧
        t.offLine = { (u.setCh c (handed u c (openingCauses s c) 0)).offLine with
          route := { s.route with drops := s.route.drops.map fun e =>
            if e.plan.number = d.plan.number then { e with claimant := some c } else e }
          comps := { s.comps with list := s.comps.list.modify (n - 1) fun y =>
            { y with reserved := y.reserved + reserved } } }) ∧
    (∀ n : Nat, Admitted s st k .metrology → 1 ≤ n → n ≤ 9999 →
      let x := stamped { (s.ch c).ctx with
        mode := .proving, drop := none, comp := none, product := none, authorised := n * 100, reservation := 0 }
      let u := s.setCh c (armedWith s c x)
      ∃ t, exec (.openProving st q (some c) n) s = .next t ∧ Answered t st q 0x51 none (.provingOpened (n * 100)) ∧
        t.offLine = (u.setCh c (handed u c (openingCauses s c) 0)).offLine)) ∧
  (∀ (s : State) (d : Drop) (n : Nat),
    let k := compOf s n
    let held := if k.loadMark then 0 else k.base - k.delivered - k.reserved
    let allowance := match productOf s d.plan.product with | some e => e.overrun * 100 | none => 0
    let credit (limit : Nat) : Nat := creditLitres (productOf s d.plan.product) (tiersOf s d.plan.product)
      d.plan.adjustment d.delivered d.amount limit
    let bounds : List Nat := [999900, held - allowance] ++
      (match d.plan.kind, d.plan.preset with | .preset, some p => [p * 100 - d.delivered] | _, _ => []) ++
      (match d.plan.ullage with | some p => [p * 100 - d.delivered] | none => []) ++
      (match d.plan.ceiling with | some p => [credit p * 100] | none => [])
    openAuthorised s d n ∈ bounds ∧ ∀ b ∈ bounds, openAuthorised s d n ≤ b) ∧
  (∀ (e : Option ProductEntry) (tiers : List Tier) (adjust : Int) (base amount limit : Nat),
    let due (l : Nat) : Nat := if l = 0 then 0 else (priceOf e tiers adjust true base (l * 100)).due
    let credit := creditLitres e tiers adjust base amount limit
    (limit < amount → credit = 0) ∧
    (amount ≤ limit → credit ≤ 9999 ∧ amount + due credit ≤ limit ∧
      ∀ l, credit < l → l ≤ 9999 → limit < amount + due l)) ∧
  (∀ (s : State) (c : Chan) (x : Cause), x ∈ openingCauses s c ↔
    x = .air ∧ (s.ch c).meter.vapour = .vapour ∨ x = .supply ∧ s.power.level = .low ∨
    x = .valve ∧ (s.ch c).gate.missed = true)

/-- R88: the first checks of OPEN TICKET in their order: a channel or numbers out of range are refused ARGUMENT,
lockout LOCKOUT, an open metrology switch METROLOGY, a channel that is not IDLE STATE; a refused request changes
nothing. -/
def Obligations.OpenTicketRefusals : Prop :=
  ∀ (s : State) (st q : Byte) (k : Cls), Admitted s st k .driver →
    let refused (i : Instr) (r : RefCode) : Prop := ∃ t, exec i s = .next t ∧
      Answered t st q 0x10 (some r) .nothing ∧ t.offLine = s.offLine
    (∀ d n, refused (.openTicket st q d none n) .argument) ∧
    (∀ c, barred s c = false →
      (∀ d n, d = 0 ∨ 9999 < d ∨ n = 0 ∨ 4 < n → refused (.openTicket st q d (some c) n) .argument) ∧
      (∀ d n, 1 ≤ d → d ≤ 9999 → 1 ≤ n → n ≤ 4 →
        (s.ctl.lockout ≠ .none → refused (.openTicket st q d (some c) n) .lockout) ∧
        (s.ctl.lockout = .none →
          (s.pins.switchOpen = true → refused (.openTicket st q d (some c) n) .metrology) ∧
          (s.pins.switchOpen = false → (s.ch c).ctx.state ≠ .idle →
            refused (.openTicket st q d (some c) n) .state))))

/-- R98, R99, R148: CLOSE TICKET cancels a ticket ARMED without pulses, answering number 0, begins the close of an
ARMED one with pulses, a PAUSED or a HELD one, which waits, and is refused STATE in FLOWING, SETTLING, IDLE and
FAULTED, BUSY in CLOSING. RETRY CLOSE hands a FAULTED context's record again and waits. -/
def Obligations.TicketsAreClosedAndRetried : Prop :=
  ∀ (s : State) (st q : Byte) (k : Cls) (c : Chan), Admitted s st k .driver → s.ctl.lockout = .none →
    ((s.ch c).ctx.mode = .proving → actingClass s k = .metrology) →
    let x := (s.ch c).ctx
    let run := exec (.closeTicket st q (some c)) s
    (x.state = .armed → counted (s.ch c).meter = false → Roomy s →
      let released (d : Drop) : Drop := if d.claimant = some c then { d with claimant := none } else d
      ∃ t, run = .next t ∧ Answered t st q 0x11 none (.ticket 0) ∧ t.offLine = ({ s with
        ctl := { s.ctl with faultOrder := s.ctl.faultOrder.filter fun d => d != c }
        route := { s.route with drops := s.route.drops.map released }
        comps := match x.comp with
          | some n => { s.comps with list := s.comps.list.modify (n - 1) fun y =>
              { y with reserved := y.reserved - x.reservation } }
          | none => s.comps }.setCh c (idled (s.ch c))).offLine) ∧
    (x.state = .armed ∧ counted (s.ch c).meter = true ∨ x.state = .paused ∨ x.state = .held → ∃ t, run = .next t ∧
      Waits t st 0x11 q (actingClass s k) ∧ t.offLine =
        (withAppend (s.setCh c { s.ch c with ctx := closingCtx s c .request (some st) }) (.close c)).offLine) ∧
    (x.state = .flowing ∨ x.state = .settling ∨ x.state = .idle ∨ x.state = .faulted → ∃ t, run = .next t ∧
      Answered t st q 0x11 (some .state) .nothing ∧ t.offLine = s.offLine) ∧
    (x.state = .closing → ∃ t, run = .next t ∧ Answered t st q 0x11 (some .busy) .nothing ∧ t.offLine = s.offLine) ∧
    (x.state = .faulted → x.retryMark = false → ∃ t, exec (.retryClose st q (some c)) s = .next t ∧
      Waits t st 0x13 q (actingClass s k) ∧ t.offLine = (withAppend (s.setCh c { s.ch c with
        ctx := { x with retryMark := true, requester := some st } }) (.close c)).offLine)

/-- R143, R144: CLEAR HOLD releases a HELD context to PAUSED when the condition of every latched cause is gone, is
refused STATE with the causes while TALLY or METROLOGY is latched, and is otherwise refused HOLD with the causes that
remain, the others cleared. -/
def Obligations.HoldsAreCleared : Prop :=
  ∀ (s : State) (st q : Byte) (k : Cls) (c : Chan), Admitted s st k .driver → s.ctl.lockout = .none →
    ((s.ch c).ctx.mode = .proving → actingClass s k = .metrology) → (s.ch c).ctx.state = .held →
    let x := (s.ch c).ctx
    let run := exec (.clearHold st q (some c)) s
    let left := x.causes.filter fun y => !conditionGone s c y
    ((.tally ∈ x.causes ∨ .metrology ∈ x.causes) → ∃ t, run = .next t ∧
      Answered t st q 0x12 (some .state) (.causes x.causes) ∧ t.offLine = s.offLine) ∧
    (.tally ∉ x.causes → .metrology ∉ x.causes →
      (left = [] → ∃ t, run = .next t ∧ Answered t st q 0x12 none .nothing ∧ t.offLine = (s.setCh c { s.ch c with
        ctx := { x with causes := [], state := .paused, rest := none, primary := none }
        meter := { (s.ch c).meter with creep := 0, creepMark := false } }).offLine) ∧
      (left ≠ [] → ∃ t, run = .next t ∧ Answered t st q 0x12 (some .hold) (.causes left) ∧
        t.offLine = (s.setCh c { s.ch c with ctx := { x with causes := left } }).offLine)) ∧
    (conditionGone s c .supply = true ↔ s.power.level = .normal) ∧
    (conditionGone s c .air = true ↔ (s.ch c).meter.vapour ≠ .vapour) ∧
    (conditionGone s c .valve = (s.ch c).gate.confirmed) ∧
    (conditionGone s c .creep = true ↔ ∃ n, x.rest = some n ∧ s.store.settings.settleQuiet ≤ n) ∧
    (conditionGone s c .silent = true ↔ ∀ y ∈ (s.ch c).silence, y.lapsed = false) ∧
    (conditionGone s c .probe = (s.ch c).meter.fresh) ∧ (conditionGone s c .reel = true ↔ (s.ch c).meter.reel = .out) ∧
    conditionGone s c .program = true

/-- R152: CLEAR LOCKOUT in a STORAGE lockout hands the oldest FAULTED context's record, or, where none is FAULTED, the
AUDIT record at whose commit the lockout ends; the request waits. Outside a STORAGE lockout it is refused STATE. At the
commit of a FAULTED context's record, of a ticket or of a proving run, the next FAULTED context's record is handed, or with
none left the AUDIT record; the lockout stays and the request goes on. At the AUDIT record's commit it is answered with the
records committed and that record's sequence. A failure of any of these appends, at its program or for want of a slot,
ends the request STORAGE with the records committed so far; the lockout, the contexts and the records committed stay. That
the AUDIT record counts the records of this CLEAR LOCKOUT only is the model's choice, notes/assumptions/64.md. -/
def Obligations.LockoutIsCleared : Prop :=
  let ended (st : Byte) (n : Nat) : Append := .manage st (.audit
    { change := .lockoutClear, counter := .configuration, station := st, old := .storageLockout, new := .noLockout
      provingSeq := 0, observed := 0, committed := n })
  (∀ (s : State) (st q : Byte) (k : Cls), Admitted s st k .metrology →
    (s.ctl.lockout ≠ .storage → ∃ t, exec (.clearLockout st q) s = .next t ∧
      Answered t st q 0x54 (some .state) .nothing ∧ t.offLine = s.offLine) ∧
    (s.ctl.lockout = .storage → s.ctl.clearing = none → (∀ p ∈ s.req.inProgress, p.code ≠ 0x54) →
      ∃ t a, exec (.clearLockout st q) s = .next t ∧ Waits t st 0x54 q .metrology ∧
        t.offLine = (withAppend { s with ctl := { s.ctl with
          clearing := some { station := st, committed := [] } } } a).offLine ∧
        (∀ c cs, s.ctl.faultOrder = c :: cs → a = .close c) ∧ (s.ctl.faultOrder = [] → a = ended st 0))) ∧
  (∀ (s : State) (c : Chan) (r : Record) (number block slot : Nat) (retry : Bool) (left : SlotLeft)
    (report : RetireReport) (x : Clearing), s.power.state = .on →
    s.journal.busy = .programming (.close c) r block slot retry →
    (∃ b, r.body = .ticket number b) ∨ (∃ b, r.body = .proving b ∧ number = r.seq) →
    s.ctl.clearing = some x → (s.ch c).ctx.requester = none →
    let rest := s.ctl.faultOrder.filter fun d => decide (d ≠ c)
    ∃ t, exec (.recordProgramEnd true left report) s = .next t ∧ (t.ch c).ctx.state = .idle ∧
      t.ctl.lockout = s.ctl.lockout ∧ t.ctl.faultOrder = rest ∧
      t.ctl.clearing = some { x with committed := x.committed ++ [(c, number)] } ∧
      (∀ d ds, rest = d :: ds → t.journal.waiting = s.journal.waiting ++ [.close d]) ∧
      (rest = [] → t.journal.waiting = s.journal.waiting ++ [ended x.station (x.committed.length + 1)]) ∧
      (Roomy s → ∀ p ∈ s.req.inProgress, p ∈ t.req.inProgress)) ∧
  (∀ (s : State) (st : Byte) (r : Record) (b : AuditBody) (block slot : Nat) (retry : Bool) (left : SlotLeft)
    (report : RetireReport) (x : Clearing), s.power.state = .on →
    s.journal.busy = .programming (.manage st r.body) r block slot retry → r.body = .audit b →
    b.change = .lockoutClear → s.ctl.clearing = some x →
    ∃ t, exec (.recordProgramEnd true left report) s = .next t ∧
      t.offLine = { (commitRecord r block slot s).offLine with
        met := { s.met with cal := r.cal, cfg := r.cfg }
        ctl := { s.ctl with lockout := .none, clearing := none, alert := false } } ∧
      ∀ p, s.req.inProgress.find? (fun q => q.station = st) = some p → AnswerRoom s →
        Answered t st p.seq p.code none (.cleared x.committed r.seq)) ∧
  (∀ (s : State) (i : Instr) (a : Append) (x : Clearing) (p : InProgress), s.power.state = .on →
    s.ctl.lockout = .storage → s.ctl.clearing = some x →
    s.req.inProgress.find? (fun q => q.station = x.station) = some p → AnswerRoom s →
    (∃ n, a = ended x.station n) ∨
      (∃ c, a = .close c ∧ (s.ch c).ctx.state = .faulted ∧ (s.ch c).ctx.requester = none ∧
        (s.ch c).ctx.retryMark = false ∧ (s.ch c).ctx.pending.isSome) →
    (∃ (r : Record) (block slot : Nat) (retry : Bool) (left : SlotLeft) (report : RetireReport),
        i = .recordProgramEnd false left report ∧ s.journal.busy = .programming a r block slot retry ∧
        (retry = true ∨ freshBlock (retire block .program (some slot) report
          (setSlot block slot (leftSlot r left) s)) = none)) ∨
      (∃ rest, i = .arbiterTake ∧ s.journal.busy = .idle ∧ s.journal.erasing = none ∧ s.journal.reads = [] ∧
        s.journal.waiting = a :: rest ∧ nextSlot s = none) →
    ∃ t, exec i s = .next t ∧ Answered t x.station p.seq p.code (some .storage) (.committed x.committed) ∧
      t.offLine = { s.offLine with
        ctl := { s.ctl with clearing := none, alert := false }, nv := t.nv, journal := t.journal })

/-! ### Requests over the journal, and RESTART (R111, R178, R179, R203) -/

/-- R111, R178: READ RECORD of a retained sequence, and REPRINT of a retained TICKET record with a printer set, ask
for a slot read and wait; otherwise NOT-FOUND, judged at the request (the model's choice, notes/assumptions/21.md), or
STATE without a printer. R179: RELEASE THROUGH over records already drained answers at once; over an undrained record
of a usable block it hands that record's drained mark and waits. -/
def Obligations.JournalRequestsAct : Prop :=
  (∀ (s : State) (st q : Byte) (k : Cls) (n : Nat), Admitted s st k .office →
    (∀ e, indexOf s n = some e → ∃ t, exec (.readRecord st q n) s = .next t ∧ Waits t st 0x40 q (actingClass s k) ∧
      t.offLine = { s.offLine with journal := { s.journal with
        reads := s.journal.reads ++ [{ station := st, seq := n, reprint := false }] } }) ∧
    (indexOf s n = none → ∃ t, exec (.readRecord st q n) s = .next t ∧
      Answered t st q 0x40 (some .notFound) .nothing ∧ t.offLine = s.offLine) ∧
    (s.ctl.lockout = .none → s.journal.release = none → (∀ p ∈ s.req.inProgress, p.code ≠ 0x41) →
      drainCursor s.journal ≤ n + 1 → n ≤ s.journal.newestSeq →
      ((∀ e ∈ s.journal.index, e.seq ≤ n → drainedEntry s.journal e = true) →
        ∃ t, exec (.releaseThrough st q n) s = .next t ∧
          Answered t st q 0x41 none (.released 0 0 (drainCursor s.journal)) ∧ t.offLine = s.offLine) ∧
      (∀ (before after : List IndexEntry) (e : IndexEntry), s.journal.index = before ++ e :: after →
        (∀ x ∈ before, x.seq ≤ n → drainedEntry s.journal x = true) → e.seq ≤ n → drainedEntry s.journal e = false →
        blockState s e.block ≠ .retired →
        ∃ t, exec (.releaseThrough st q n) s = .next t ∧ Waits t st 0x41 q (actingClass s k) ∧
          t.offLine = { s.offLine with journal := { s.journal with
            release := some { station := st, target := n, marked := 0, memory := 0 }
            waiting := s.journal.waiting ++ [.mark e.seq] } }))) ∧
  (∀ (s : State) (st q : Byte) (k : Cls) (n : Nat), Admitted s st k .driver → s.ctl.lockout = .none →
    (s.store.settings.printer = 0 → ∃ t, exec (.reprint st q n) s = .next t ∧
      Answered t st q 0x14 (some .state) .nothing ∧ t.offLine = s.offLine) ∧
    (s.store.settings.printer ≠ 0 →
      (∀ e, indexOf s n = some e → e.kind = .ticket → ∃ t, exec (.reprint st q n) s = .next t ∧
        Waits t st 0x14 q (actingClass s k) ∧ t.offLine = { s.offLine with journal := { s.journal with
          reads := s.journal.reads ++ [{ station := st, seq := n, reprint := true }] } }) ∧
      ((∀ e, indexOf s n = some e → e.kind ≠ .ticket) → ∃ t, exec (.reprint st q n) s = .next t ∧
        Answered t st q 0x14 (some .notFound) .nothing ∧ t.offLine = s.offLine)))

/-- R203: RESTART is refused LOCKOUT in a STORAGE lockout, STATE with a context not IDLE, BUSY with another request in
progress, and otherwise answered DONE; when that reply has been sent and no erase is in progress, the part is in
STARTING with every block at its power-on values. The classing at the restart is the model's reading,
notes/assumptions/9.md. -/
def Obligations.RestartBeginsAfterItsReply : Prop :=
  (∀ (s : State) (st q : Byte) (k : Cls), Admitted s st k .office →
    let refused (r : RefCode) : Prop := ∃ t, exec (.restart st q) s = .next t ∧
      Answered t st q 0x62 (some r) .nothing ∧ t.offLine = s.offLine
    (s.ctl.lockout = .storage → refused .lockout) ∧
    (s.ctl.lockout ≠ .storage →
      ((s.chA.ctx.state ≠ .idle ∨ s.chB.ctx.state ≠ .idle) → refused .state) ∧
      (s.chA.ctx.state = .idle → s.chB.ctx.state = .idle →
        (s.req.inProgress ≠ [] → refused .busy) ∧
        (s.req.inProgress = [] → ∃ t, exec (.restart st q) s = .next t ∧ Answered t st q 0x62 none .nothing ∧
          t.offLine = { s.offLine with req := { inProgress := [], restart := some false } })))) ∧
  (∀ (s : State) (r : Reply) (b : Bool), s.power.state = .on → s.line.cline = some (.reply r) → r.code = 0x62 →
    r.refusal = none → s.req.restart = some b → s.journal.erasing = none →
    exec .cTransmitEnd s = .next { coldStart s with
      power := { state := .starting, level := classLevel {} s.power.level s.pins.voltage } })

/-! ### Relations that every step keeps -/

/-- R146: after every step the alert line stands as its rule judges it: asserted, outside OFF, exactly while a masked cause
is in either channel's set or the part is in lockout under the mask's lockout flag. R200: after every step the standby
delay timer runs exactly while its conditions hold together: ON, ignition OFF, both contexts IDLE, no request in
progress, no append or mark waiting or programming, no erase, and a setting other than 0. Provided each did before, which
matters only to a step without a command. -/
def Obligations.AlertAndStandbyAreJudged : Prop :=
  let lit (s : State) : Prop := s.power.state ≠ .off ∧
    ((∃ c ∈ s.store.settings.maskCauses, c ∈ s.chA.ctx.causes ∨ c ∈ s.chB.ctx.causes) ∨
      s.ctl.lockout ≠ .none ∧ s.store.settings.maskLockout = true)
  let parked (s : State) : Prop := s.power.state = .on ∧ s.pins.ignitionOn = false ∧ s.chA.ctx.state = .idle ∧
    s.chB.ctx.state = .idle ∧ s.req.inProgress = [] ∧ s.journal.waiting = [] ∧ s.journal.busy = .idle ∧
    s.journal.erasing = none ∧ s.store.settings.standbyDelay ≠ 0
  ∀ s t : State, step s = .next t →
    ((s.ctl.alert = true ↔ lit s) → (t.ctl.alert = true ↔ lit t)) ∧
    ((s.power.standby.isSome = true ↔ parked s) → (t.power.standby.isSome = true ↔ parked t))

/-- R13, R15, R20, R166: every step keeps both queues within their places, every line counter within 0 to 65535, and
the array at 64 blocks of 16 slots. -/
def Obligations.PlacesCountersAndArrayAreKept : Prop :=
  ∀ s t : State, step s = .next t →
    (PlacesKept s → PlacesKept t) ∧ (countersKept s → countersKept t) ∧ (arrayKept s → arrayKept t)

/-- The relations that every step keeps hold at reset. R38, R39, R65, R86, R149, R154, R166, R188: what the spec gives the
part as it leaves the factory: no route, contexts IDLE, default settings and metrology settings, one METROLOGY station
at 120, every other table region failing its check, an erased array of 64 blocks, no lockout, no command waiting. That
reset is that part in OFF, and what its inputs show, is the model's choice, notes/assumptions/4.md and 5.md. -/
def Obligations.ResetIsTheFactoryState : Prop :=
  (alertKept State.reset ∧ standbyKept State.reset ∧ PlacesKept State.reset ∧ countersKept State.reset ∧
     arrayKept State.reset) ∧
  (State.reset.power.state = .off ∧ State.reset.power.unset = true ∧ State.reset.pending = [] ∧
   State.reset.chA.ctx.state = .idle ∧ State.reset.chB.ctx.state = .idle ∧ State.reset.route.state = .none ∧
   State.reset.ctl.lockout = .none ∧ State.reset.comps.list = List.replicate 4 {} ∧
   State.reset.nv.regions.settings = some ({}, {}) ∧
   State.reset.nv.regions.stations = some [{ address := 120, cls := .metrology }] ∧
   State.reset.nv.regions.products = none ∧ State.reset.nv.regions.prices = none ∧
   State.reset.nv.regions.curves = none ∧ State.reset.nv.regions.programs = none ∧
   State.reset.nv.regions.nodes = none ∧ State.reset.nv.regions.route = none ∧
   State.reset.nv.array.length = 64 ∧ emptyArray State.reset)

/-- R2, R3: the bytes of a frame whose addresses and length R2 admits are read as that frame, and the bytes of a frame
that is read are its own. R1, R3, R4: a forwarded frame stands on the line as it arrived; a frame that the part originates
carries source 0 and the destination, kind and sequence of what it is, and its bytes are the header, the payload and the
check over both, low byte first. -/
def Obligations.FramesReadBackFromTheirBytes : Prop :=
  (∀ f : Frame, frameOk f = true → parseFrame (frameBytes f) = some f) ∧
  (∀ (bytes : List Byte) (f : Frame), parseFrame bytes = some f → bytes = frameBytes f ∧ frameOk f = true) ∧
  (∀ f : Frame, frameF (.fwd f) = f ∧ frameC (.fwd f) = f) ∧
  (let originated (f : Frame) (dst seq kind : Byte) : Prop := f.dst = dst ∧ f.src = 0 ∧ f.seq = seq ∧ f.kind = kind ∧
     let body := [dst, 0, kind, seq, BitVec.ofNat 8 f.payload.length] ++ f.payload
     frameBytes f = body ++ [(check16 body).extractLsb' 0 8, (check16 body).extractLsb' 8 8]
   (∀ c dst seq p n, originated (frameF (.order c dst seq p n)) dst seq 0x21) ∧
   (∀ a : Answer, originated (frameC (.answer a)) a.dst a.seq 0x22 ∧ (frameC (.answer a)).payload.length = 4) ∧
   (∀ dst seq n, originated (frameC (.notice dst seq n)) dst seq 0x31 ∧
     (frameC (.notice dst seq n)).payload.length = 25) ∧
   (∀ seq p, originated (frameC (.print seq p)) p.dst seq 0x32 ∧ (frameC (.print seq p)).payload.length = 237) ∧
   (∀ r : Reply, originated (frameC (.reply r)) r.dst r.seq 0x42 ∧
     3 ≤ (frameC (.reply r)).payload.length ∧ (frameC (.reply r)).payload.length ≤ 255 ∧
     (r.result = .nothing → (frameC (.reply r)).payload.length = 3)))

/-- R51, R56, R101: the record built at a close carries the gross, the pulse quantity times the applied factor over
10000, rounded down, the pulse quantity 0 where the reverse pulses are the greater; the net, the gross times the
correction factor at the average temperature over 10000, rounded down; and the status: VOID without pulses,
INTERRUPTED by lockout, shutdown, TALLY or METROLOGY, COMPLETE by the guard, an END action or a preset within a litre,
and SHORT otherwise. The gross and the net told at any other time are computed in the same way, and the net of a
proving run is 0. R100, R102: the record's other fields are those of the claim, the context and the meter, and its flags
OVERRUN, CREEP-SEEN, TALLY-GAPS and CLOCK-UNSET follow their rules. R192: the record of a proving run, and the judgement
that it is sound. Beside them: R54, the average temperature; R55, the factor read from a curve, clamped beyond its ends
and rounded down between its points; R103, the price lines of a range; R104, adjustment, fee, tax and amount due; R105, the
live amount, without the fee. -/
def Obligations.FiguresAndStatus : Prop :=
  (∀ (s : State) (c : Chan) (d : Claimed), (s.ch c).ctx.drop = some d →
    let m := (s.ch c).meter
    let x := (s.ch c).ctx
    let ended := (s.ch c).monitor.endFired
    ∃ t : TicketBody, buildRecord s c = .ticket t ∧
      (m.rev ≤ m.fwd → t.gross = (m.fwd - m.rev) * m.mf / 10000) ∧ (m.fwd < m.rev → t.gross = 0) ∧
      t.vcf = (productVcf s d.plan.product (averageTemp m)).1 ∧ t.net = t.gross * t.vcf / 10000 ∧
      liveGross s c = t.gross ∧ (x.mode = .delivery → x.product = some d.plan.product → liveNet s c = t.net) ∧
      (let complete := (s.ch c).monitor.guard = true ∨ ended = true ∨
         d.plan.kind = .preset ∧ d.plan.preset.getD 0 * 100 ≤ x.baseVolume + t.net + 100
       let interrupted := x.origin = .lockout ∨ x.origin = .shutdown ∨ .tally ∈ x.causes ∨ .metrology ∈ x.causes
       (m.fwd ≤ m.rev → t.status = .void) ∧
       (m.rev < m.fwd → interrupted → t.status = .interrupted) ∧
       (m.rev < m.fwd → ¬ interrupted → complete → t.status = .complete) ∧
       (m.rev < m.fwd → ¬ interrupted → ¬ complete → t.status = .short)) ∧
      t.temp = averageTemp m ∧
      t.flags.clamped = (productVcf s d.plan.product t.temp).2 ∧
      (let allowance := match productOf s d.plan.product with | some e => e.overrun * 100 | none => 0
       (t.flags.overrun = true ↔ x.authorised + allowance < t.net) ∧ t.flags.creepSeen = x.flags.creepSeen ∧
       (t.flags.tallyGaps = true ↔ m.gaps ≠ 0) ∧
       (t.flags.clockUnset = true ↔ x.flags.clockUnset = true ∨ s.power.unset = true)) ∧
      t.routeId = d.routeId ∧ t.drop = d.plan.number ∧ t.account = d.plan.account ∧ t.product = d.plan.product ∧
      t.chan = c ∧ t.comp = x.comp.getD 0 ∧ t.origin = x.origin ∧ t.openTime = x.openTime ∧
      t.authorised = x.authorised ∧ t.reservation = x.reservation ∧ t.mf = m.mf ∧ t.fwd = m.fwd ∧ t.rev = m.rev ∧
      t.gaps = m.gaps ∧ t.episodes = x.episodes ∧ t.holdCount = x.holdCount ∧ t.holds = x.holds ∧
      (let price := priceOf (productOf s d.plan.product) (tiersOf s d.plan.product) d.plan.adjustment
         (t.status = .complete) x.baseVolume t.net
       t.lines = price.lines ∧ t.adjustment = price.adjustment ∧ t.fee = price.fee ∧ t.tax = price.tax ∧
       t.due = price.due) ∧
      liveDue s c = (priceOf (productOf s d.plan.product) (tiersOf s d.plan.product) d.plan.adjustment false
        x.baseVolume (liveNet s c)).due) ∧
  (∀ (s : State) (c : Chan), (s.ch c).ctx.mode = .proving → liveNet s c = 0) ∧
  (∀ (s : State) (c : Chan), (s.ch c).ctx.drop = none →
    let m := (s.ch c).meter
    let x := (s.ch c).ctx
    let disturbed := x.origin = .lockout ∨ x.origin = .shutdown ∨ .tally ∈ x.causes ∨ .metrology ∈ x.causes ∨
      m.fwd ≤ m.rev
    ∃ (sound : Bool), buildRecord s c = .proving
        { chan := c, openTime := x.openTime, fwd := m.fwd, rev := m.rev, gross := liveGross s c, temp := averageTemp m
          target := x.authorised, episodes := x.episodes } sound ∧ (sound = true ↔ ¬ disturbed)) ∧
  (∀ m : Meter,
    (m.fwd ≤ m.rev → averageTemp m = (match m.probe with | some t => t | none => 150) + m.offset) ∧
    (m.rev < m.fwd → averageTemp m = Int.tdiv m.weighted ((m.fwd : Int) - m.rev))) ∧
  (∀ (s : State) (n : Nat) (e : ProductEntry) (l : List Nat) (t : Int), productOf s n = some e →
    curveOf s e.curve = some l → l.length = 16 →
    let vcf := productVcf s n t
    (t < -300 → vcf = (l.getD 0 0, true)) ∧ (450 < t → vcf = (l.getD 15 0, true)) ∧
    (t = 450 → vcf = (l.getD 15 0, false)) ∧
    (∀ i : Nat, i < 15 → -300 + 50 * (i : Int) ≤ t → t < -250 + 50 * (i : Int) →
      vcf.2 = false ∧ (vcf.1 : Int) = (l.getD i 0 : Int) +
        ((l.getD (i + 1) 0 : Int) - (l.getD i 0 : Int)) * (t - (-300 + 50 * (i : Int))) / 50)) ∧
  (∀ (e : Option ProductEntry) (tiers : List Tier) (adjust : Int) (withFee : Bool) (base net : Nat),
    let price := priceOf e tiers adjust withFee base net
    let lines := (tiers.zip (tiers.tail.map some ++ [none])).filterMap fun (x : Tier × Option Tier) =>
      let start := max base (x.1.fromVolume * 100)
      let stop := match x.2 with | some u => min (base + net) (u.fromVolume * 100) | none => base + net
      if start < stop then some { volume := stop - start, unitPrice := x.1.unitPrice : PriceLine } else none
    let amounts : Nat := (lines.map fun l => (l.volume * l.unitPrice + 500) / 1000).sum
    let subtotal := ((amounts : Int) + price.adjustment + price.fee).toNat
    price.lines = lines ∧ price.adjustment = ((net : Int) * adjust + 500) / 1000 ∧
    price.fee = (match e with
      | some p => if withFee = true ∧ base + net < p.minDelivery * 100 then p.fee else 0
      | none => 0) ∧
    price.tax = (match e with | some p => (subtotal * p.tax + 5000) / 10000 | none => 0) ∧
    price.due = subtotal + price.tax)

end
end

