-- ==== Sys2Proof/Laws/Blocks.lean ====
section
/-! SUPPORT. Which block a journal append takes (R172): the block that is current, or the erased block of the lowest erase
count. -/
namespace Sys2Proof.Machine

/-- Of numbered blocks the one with the least figure, the first among equals, told of the fold that seeks it. -/
def leastOf (l : List (Nat × Nat)) (b : Option (Nat × Nat)) : Prop :=
  (b = none ↔ l = []) ∧ ∀ n f, b = some (n, f) → (n, f) ∈ l ∧ ∀ m g, (m, g) ∈ l → f < g ∨ f = g ∧ n ≤ m

theorem leastOf_snoc {l : List (Nat × Nat)} {b : Option (Nat × Nat)} {n f : Nat} (h : leastOf l b)
    (above : ∀ x ∈ l, x.1 < n) : leastOf (l ++ [(n, f)]) (lowerOf b n f) := by
  match b, h with
  | none, ⟨h0, _⟩ =>
    rw [h0.mp rfl]
    refine ⟨by simp [lowerOf], fun m g e => ?_⟩
    simp only [lowerOf, Option.some.injEq, Prod.mk.injEq] at e
    simp [← e.1, ← e.2]
  | some (m, g), ⟨_, h1⟩ =>
    have ⟨hm, hl⟩ := h1 m g rfl
    have hlt := above _ hm
    by_cases hfg : f < g
    · refine ⟨by simp [lowerOf, hfg], fun a c e => ?_⟩
      simp only [lowerOf, if_pos hfg, Option.some.injEq, Prod.mk.injEq] at e
      obtain ⟨rfl, rfl⟩ := e
      refine ⟨by simp, fun a c hx => ?_⟩
      rcases List.mem_append.mp hx with hx | hx
      · have := hl a c hx
        omega
      · simp only [List.mem_singleton, Prod.mk.injEq] at hx
        omega
    · refine ⟨by simp [lowerOf, hfg], fun a c e => ?_⟩
      simp only [lowerOf, if_neg hfg, Option.some.injEq, Prod.mk.injEq] at e
      obtain ⟨rfl, rfl⟩ := e
      refine ⟨List.mem_append_left _ hm, fun a c hx => ?_⟩
      rcases List.mem_append.mp hx with hx | hx
      · exact hl a c hx
      · simp only [List.mem_singleton, Prod.mk.injEq] at hx
        omega

/-- The ERASED blocks of a block table with their erase counts, numbered from `k`. -/
def erasedFrom (k : Nat) : List BlockInfo → List (Nat × Nat)
  | [] => []
  | i :: rest => (if i.state = .erased then [(k, i.erases)] else []) ++ erasedFrom (k + 1) rest

theorem erasedFrom_above (l : List BlockInfo) (k : Nat) : ∀ x ∈ erasedFrom k l, k ≤ x.1 := by
  induction l generalizing k with
  | nil => simp [erasedFrom]
  | cons i rest ih =>
    intro x hx
    rcases List.mem_append.mp hx with h | h
    · split at h <;> simp_all
    · exact Nat.le_of_lt (ih (k + 1) x h)

theorem mem_erasedFrom (l : List BlockInfo) (k n f : Nat) :
    (n, f) ∈ erasedFrom k l ↔ ∃ i, k ≤ n ∧ l[n - k]? = some i ∧ i.state = .erased ∧ i.erases = f := by
  induction l generalizing k with
  | nil => simp [erasedFrom]
  | cons j rest ih =>
    rw [erasedFrom, List.mem_append, ih]
    constructor
    · rintro (h | ⟨i, h1, h2, h3⟩)
      · split at h
        · rename_i hj
          simp only [List.mem_singleton, Prod.mk.injEq] at h
          exact ⟨j, by omega, by simp [h.1], hj, h.2.symm⟩
        · simp at h
      · refine ⟨i, by omega, ?_, h3⟩
        rw [show n - k = (n - (k + 1)) + 1 by omega]
        exact h2
    · rintro ⟨i, h1, h2, h3, h4⟩
      rcases Nat.eq_or_lt_of_le h1 with rfl | hlt
      · left
        simp only [Nat.sub_self, List.getElem?_cons_zero, Option.some.injEq] at h2
        subst h2
        simp [h3, h4]
      · right
        rw [show n - k = (n - (k + 1)) + 1 by omega] at h2
        exact ⟨i, hlt, h2, h3, h4⟩

theorem fold_leastOf (l : List BlockInfo) (k : Nat) (seen : List (Nat × Nat)) (b : Option (Nat × Nat))
    (h : leastOf seen b) (above : ∀ x ∈ seen, x.1 < k) :
    leastOf (seen ++ erasedFrom k l) ((l.zipIdx k).foldl
      (fun best x => if x.1.state = BlockState.erased then lowerOf best x.2 x.1.erases else best) b) := by
  induction l generalizing k seen b with
  | nil => simpa [erasedFrom] using h
  | cons i rest ih =>
    simp only [List.zipIdx_cons, List.foldl_cons, erasedFrom]
    rw [← List.append_assoc]
    split
    · refine ih (k + 1) _ _ (leastOf_snoc h above) fun x hx => ?_
      rcases List.mem_append.mp hx with hx | hx
      · exact Nat.lt_succ_of_lt (above x hx)
      · simp only [List.mem_singleton] at hx
        simp [hx]
    · simp only [List.append_nil]
      exact ih (k + 1) seen b h fun x hx => Nat.lt_succ_of_lt (above x hx)

/-- R172, step 1: the ERASED block with the lowest erase count, the lowest number among equals. -/
theorem freshBlock_eq_some (s : State) (b : Nat) : freshBlock s = some b ↔
    ∃ i, s.journal.blocks[b]? = some i ∧ i.state = .erased ∧
      ∀ n j, s.journal.blocks[n]? = some j → j.state = .erased →
        i.erases < j.erases ∨ i.erases = j.erases ∧ b ≤ n := by
  have h := fold_leastOf s.journal.blocks 0 [] none ⟨by simp, by simp⟩ (by simp)
  rw [List.nil_append] at h
  have mem (n f : Nat) := mem_erasedFrom s.journal.blocks 0 n f
  simp only [Nat.zero_le, Nat.sub_zero, true_and] at mem
  unfold freshBlock
  generalize (s.journal.blocks.zipIdx 0).foldl _ none = best at h ⊢
  constructor
  · intro e
    obtain ⟨⟨n, f⟩, hb, rfl⟩ := Option.map_eq_some_iff.mp e
    have ⟨hm, hl⟩ := h.2 n f hb
    obtain ⟨i, h1, h2, rfl⟩ := (mem n f).mp hm
    exact ⟨i, h1, h2, fun m j hj hs => hl m j.erases ((mem m j.erases).mpr ⟨j, hj, hs, rfl⟩)⟩
  · rintro ⟨i, h1, h2, h3⟩
    have hm := (mem b i.erases).mpr ⟨i, h1, h2, rfl⟩
    match best, h with
    | none, h =>
      rw [h.1.mp rfl] at hm
      cases hm
    | some (n, f), h =>
      have ⟨hn, hl⟩ := h.2 n f rfl
      obtain ⟨j, k1, k2, rfl⟩ := (mem n f).mp hn
      have a := hl b i.erases hm
      have c := h3 n j k1 k2
      simp only [Option.map_some, Option.some.injEq]
      omega

/-- The next slot is that of the first CURRENT block (R172, step 1). -/
theorem nextSlot_current (s : State) (b : Nat) (i : BlockInfo) (h : s.journal.blocks[b]? = some i)
    (hc : i.state = .current) (first : ∀ n j, n < b → s.journal.blocks[n]? = some j → j.state ≠ .current) :
    nextSlot s = some (b, i.writePoint) := by
  have hlt : b < s.journal.blocks.length := (List.getElem?_eq_some_iff.mp h).1
  have found : (s.journal.blocks.findIdx? fun i => decide (i.state = .current)) = some b := by
    rw [List.findIdx?_eq_some_iff_getElem]
    refine ⟨hlt, ?_, fun n hn => ?_⟩
    · rw [(List.getElem?_eq_some_iff.mp h).2]
      simpa using hc
    · have := first n _ hn (List.getElem?_eq_getElem (Nat.lt_trans hn hlt))
      simpa using this
  unfold nextSlot currentBlock
  simp only [found, h, Option.map_some, Option.getD_some]

/-- With no CURRENT block the next slot is slot 0 of the fresh one (R172, step 1). -/
theorem nextSlot_fresh (s : State) (h : ∀ i ∈ s.journal.blocks, i.state ≠ .current) :
    nextSlot s = (freshBlock s).map fun b => (b, 0) := by
  have found : (s.journal.blocks.findIdx? fun i => decide (i.state = .current)) = none := by
    simpa [List.findIdx?_eq_none_iff] using h
  unfold nextSlot currentBlock
  simp only [found]

end Sys2Proof.Machine
end

