-- ==== Sys2Proof/Laws/Bytes.lean ====
section
/-! SUPPORT. How many bytes the layouts of records and frames have (R2, R62, R109, R168). -/
namespace Sys2Proof.Machine

/-- A value in the range of a signed field is kept exactly. -/
theorem withinSigned_of_range {n : Nat} {v : Int} (h : -(2 : Int) ^ (8 * n - 1) ≤ v ∧ v < (2 : Int) ^ (8 * n - 1)) :
    withinSigned n v = v := if_pos h

@[simp] theorem leBytes_length (n v : Nat) : (leBytes n v).length = n := by
  induction n generalizing v with
  | zero => rfl
  | succ n ih => simp [leBytes, ih]

@[simp] theorem field_length (n v : Nat) : (field n v).length = n := leBytes_length n _

@[simp] theorem signedField_length (n : Nat) (v : Int) : (signedField n v).length = n := leBytes_length n _

@[simp] theorem listBytes_length (n : Nat) (l : List Byte) : (listBytes n l).length = n := by
  simp [listBytes]

@[simp] theorem headerBytes_length (r : Record) : (headerBytes r).length = 26 := by simp [headerBytes]

@[simp] theorem ticketBytes_length (number : Nat) (t : TicketBody) : (ticketBytes number t).length = 196 := by
  unfold ticketBytes
  simp only [List.length_append]
  simp only [field_length, signedField_length, listBytes_length]

@[simp] theorem bodyBytes_length (b : Body) : (bodyBytes b).length = 196 := by
  cases b with
  | ticket number t => exact ticketBytes_length number t
  | _ => exact listBytes_length 196 _

@[simp] theorem recordBytes_length (r : Record) : (recordBytes r).length = 224 := by
  simp only [recordBytes, recordContent, List.length_append, headerBytes_length, bodyBytes_length, List.length_cons,
    List.length_nil]

@[simp] theorem noticePayload_length (n : Notice) : (noticePayload n).length = 25 := by
  simp [noticePayload]

theorem resultPayload_length (x : Result) : (resultPayload x).length ≤ 252 := by
  cases x with
  | nothing => exact Nat.zero_le _
  | _ => exact (List.length_take (i := 252) ▸ Nat.min_le_left 252 _)

end Sys2Proof.Machine
end

