-- ==== Sys2Proof/Laws/State.lean ====
section
/-! SUPPORT. The small lemmas of the state's updates: one per field per update, so that no proof unfolds a record
update. -/
namespace Sys2Proof.Machine

/-! ### The channels -/

@[simp] theorem ch_a (s : State) : s.ch .a = s.chA := rfl
@[simp] theorem ch_b (s : State) : s.ch .b = s.chB := rfl
@[simp] theorem setCh_a (s : State) (x : Channel) : s.setCh .a x = { s with chA := x } := rfl
@[simp] theorem setCh_b (s : State) (x : Channel) : s.setCh .b x = { s with chB := x } := rfl

/-- A channel after the other one, or itself, has been replaced. -/
theorem ch_setCh (s : State) (c d : Chan) (x : Channel) : (s.setCh c x).ch d = if d = c then x else s.ch d := by
  cases c <;> cases d <;> rfl

theorem ch_modCh (c d : Chan) (f : Channel → Channel) (s : State) :
    (modCh c f s).ch d = if d = c then f (s.ch d) else s.ch d := by
  cases c <;> cases d <;> rfl

@[simp] theorem ch_modCh_same (c : Chan) (f : Channel → Channel) (s : State) : (modCh c f s).ch c = f (s.ch c) := by
  cases c <;> rfl

theorem ch_modCh_other {c d : Chan} (h : d ≠ c) (f : Channel → Channel) (s : State) : (modCh c f s).ch d = s.ch d := by
  rw [ch_modCh, if_neg h]

@[simp] theorem modCh_power (c : Chan) (f : Channel → Channel) (s : State) : (modCh c f s).power = s.power := by
  cases c <;> rfl
@[simp] theorem modCh_pins (c : Chan) (f : Channel → Channel) (s : State) : (modCh c f s).pins = s.pins := by
  cases c <;> rfl
@[simp] theorem modCh_line (c : Chan) (f : Channel → Channel) (s : State) : (modCh c f s).line = s.line := by
  cases c <;> rfl
@[simp] theorem modCh_route (c : Chan) (f : Channel → Channel) (s : State) : (modCh c f s).route = s.route := by
  cases c <;> rfl
@[simp] theorem modCh_comps (c : Chan) (f : Channel → Channel) (s : State) : (modCh c f s).comps = s.comps := by
  cases c <;> rfl
@[simp] theorem modCh_store (c : Chan) (f : Channel → Channel) (s : State) : (modCh c f s).store = s.store := by
  cases c <;> rfl
@[simp] theorem modCh_journal (c : Chan) (f : Channel → Channel) (s : State) : (modCh c f s).journal = s.journal := by
  cases c <;> rfl
@[simp] theorem modCh_req (c : Chan) (f : Channel → Channel) (s : State) : (modCh c f s).req = s.req := by
  cases c <;> rfl
@[simp] theorem modCh_met (c : Chan) (f : Channel → Channel) (s : State) : (modCh c f s).met = s.met := by
  cases c <;> rfl
@[simp] theorem modCh_ctl (c : Chan) (f : Channel → Channel) (s : State) : (modCh c f s).ctl = s.ctl := by
  cases c <;> rfl
@[simp] theorem modCh_nv (c : Chan) (f : Channel → Channel) (s : State) : (modCh c f s).nv = s.nv := by
  cases c <;> rfl
@[simp] theorem modCh_free (c : Chan) (f : Channel → Channel) (s : State) : (modCh c f s).free = s.free := by
  cases c <;> rfl
@[simp] theorem modCh_pending (c : Chan) (f : Channel → Channel) (s : State) : (modCh c f s).pending = s.pending := by
  cases c <;> rfl

/-! ### modCtx -/

@[simp] theorem modCtx_power (c : Chan) (f : Ctx → Ctx) (s : State) : (modCtx c f s).power = s.power :=
  modCh_power c _ s
@[simp] theorem modCtx_pins (c : Chan) (f : Ctx → Ctx) (s : State) : (modCtx c f s).pins = s.pins :=
  modCh_pins c _ s
@[simp] theorem modCtx_line (c : Chan) (f : Ctx → Ctx) (s : State) : (modCtx c f s).line = s.line :=
  modCh_line c _ s
@[simp] theorem modCtx_route (c : Chan) (f : Ctx → Ctx) (s : State) : (modCtx c f s).route = s.route :=
  modCh_route c _ s
@[simp] theorem modCtx_comps (c : Chan) (f : Ctx → Ctx) (s : State) : (modCtx c f s).comps = s.comps :=
  modCh_comps c _ s
@[simp] theorem modCtx_store (c : Chan) (f : Ctx → Ctx) (s : State) : (modCtx c f s).store = s.store :=
  modCh_store c _ s
@[simp] theorem modCtx_journal (c : Chan) (f : Ctx → Ctx) (s : State) : (modCtx c f s).journal = s.journal :=
  modCh_journal c _ s
@[simp] theorem modCtx_req (c : Chan) (f : Ctx → Ctx) (s : State) : (modCtx c f s).req = s.req :=
  modCh_req c _ s
@[simp] theorem modCtx_met (c : Chan) (f : Ctx → Ctx) (s : State) : (modCtx c f s).met = s.met :=
  modCh_met c _ s
@[simp] theorem modCtx_ctl (c : Chan) (f : Ctx → Ctx) (s : State) : (modCtx c f s).ctl = s.ctl :=
  modCh_ctl c _ s
@[simp] theorem modCtx_nv (c : Chan) (f : Ctx → Ctx) (s : State) : (modCtx c f s).nv = s.nv :=
  modCh_nv c _ s
@[simp] theorem modCtx_free (c : Chan) (f : Ctx → Ctx) (s : State) : (modCtx c f s).free = s.free :=
  modCh_free c _ s
@[simp] theorem modCtx_pending (c : Chan) (f : Ctx → Ctx) (s : State) : (modCtx c f s).pending = s.pending :=
  modCh_pending c _ s
@[simp] theorem ch_modCtx_same (c : Chan) (f : Ctx → Ctx) (s : State) :
    (modCtx c f s).ch c = { s.ch c with ctx := f (s.ch c).ctx } :=
  ch_modCh_same c _ s
theorem ch_modCtx_other {c d : Chan} (h : d ≠ c) (f : Ctx → Ctx) (s : State) : (modCtx c f s).ch d = s.ch d :=
  ch_modCh_other h _ s

/-! ### modMeter -/

@[simp] theorem modMeter_power (c : Chan) (f : Meter → Meter) (s : State) : (modMeter c f s).power = s.power :=
  modCh_power c _ s
@[simp] theorem modMeter_pins (c : Chan) (f : Meter → Meter) (s : State) : (modMeter c f s).pins = s.pins :=
  modCh_pins c _ s
@[simp] theorem modMeter_line (c : Chan) (f : Meter → Meter) (s : State) : (modMeter c f s).line = s.line :=
  modCh_line c _ s
@[simp] theorem modMeter_route (c : Chan) (f : Meter → Meter) (s : State) : (modMeter c f s).route = s.route :=
  modCh_route c _ s
@[simp] theorem modMeter_comps (c : Chan) (f : Meter → Meter) (s : State) : (modMeter c f s).comps = s.comps :=
  modCh_comps c _ s
@[simp] theorem modMeter_store (c : Chan) (f : Meter → Meter) (s : State) : (modMeter c f s).store = s.store :=
  modCh_store c _ s
@[simp] theorem modMeter_journal (c : Chan) (f : Meter → Meter) (s : State) : (modMeter c f s).journal = s.journal :=
  modCh_journal c _ s
@[simp] theorem modMeter_req (c : Chan) (f : Meter → Meter) (s : State) : (modMeter c f s).req = s.req :=
  modCh_req c _ s
@[simp] theorem modMeter_met (c : Chan) (f : Meter → Meter) (s : State) : (modMeter c f s).met = s.met :=
  modCh_met c _ s
@[simp] theorem modMeter_ctl (c : Chan) (f : Meter → Meter) (s : State) : (modMeter c f s).ctl = s.ctl :=
  modCh_ctl c _ s
@[simp] theorem modMeter_nv (c : Chan) (f : Meter → Meter) (s : State) : (modMeter c f s).nv = s.nv :=
  modCh_nv c _ s
@[simp] theorem modMeter_free (c : Chan) (f : Meter → Meter) (s : State) : (modMeter c f s).free = s.free :=
  modCh_free c _ s
@[simp] theorem modMeter_pending (c : Chan) (f : Meter → Meter) (s : State) : (modMeter c f s).pending = s.pending :=
  modCh_pending c _ s
@[simp] theorem ch_modMeter_same (c : Chan) (f : Meter → Meter) (s : State) :
    (modMeter c f s).ch c = { s.ch c with meter := f (s.ch c).meter } :=
  ch_modCh_same c _ s
theorem ch_modMeter_other {c d : Chan} (h : d ≠ c) (f : Meter → Meter) (s : State) : (modMeter c f s).ch d = s.ch d :=
  ch_modCh_other h _ s

/-! ### modGate -/

@[simp] theorem modGate_power (c : Chan) (f : Gate → Gate) (s : State) : (modGate c f s).power = s.power :=
  modCh_power c _ s
@[simp] theorem modGate_pins (c : Chan) (f : Gate → Gate) (s : State) : (modGate c f s).pins = s.pins :=
  modCh_pins c _ s
@[simp] theorem modGate_line (c : Chan) (f : Gate → Gate) (s : State) : (modGate c f s).line = s.line :=
  modCh_line c _ s
@[simp] theorem modGate_route (c : Chan) (f : Gate → Gate) (s : State) : (modGate c f s).route = s.route :=
  modCh_route c _ s
@[simp] theorem modGate_comps (c : Chan) (f : Gate → Gate) (s : State) : (modGate c f s).comps = s.comps :=
  modCh_comps c _ s
@[simp] theorem modGate_store (c : Chan) (f : Gate → Gate) (s : State) : (modGate c f s).store = s.store :=
  modCh_store c _ s
@[simp] theorem modGate_journal (c : Chan) (f : Gate → Gate) (s : State) : (modGate c f s).journal = s.journal :=
  modCh_journal c _ s
@[simp] theorem modGate_req (c : Chan) (f : Gate → Gate) (s : State) : (modGate c f s).req = s.req :=
  modCh_req c _ s
@[simp] theorem modGate_met (c : Chan) (f : Gate → Gate) (s : State) : (modGate c f s).met = s.met :=
  modCh_met c _ s
@[simp] theorem modGate_ctl (c : Chan) (f : Gate → Gate) (s : State) : (modGate c f s).ctl = s.ctl :=
  modCh_ctl c _ s
@[simp] theorem modGate_nv (c : Chan) (f : Gate → Gate) (s : State) : (modGate c f s).nv = s.nv :=
  modCh_nv c _ s
@[simp] theorem modGate_free (c : Chan) (f : Gate → Gate) (s : State) : (modGate c f s).free = s.free :=
  modCh_free c _ s
@[simp] theorem modGate_pending (c : Chan) (f : Gate → Gate) (s : State) : (modGate c f s).pending = s.pending :=
  modCh_pending c _ s
@[simp] theorem ch_modGate_same (c : Chan) (f : Gate → Gate) (s : State) :
    (modGate c f s).ch c = { s.ch c with gate := f (s.ch c).gate } :=
  ch_modCh_same c _ s
theorem ch_modGate_other {c d : Chan} (h : d ≠ c) (f : Gate → Gate) (s : State) : (modGate c f s).ch d = s.ch d :=
  ch_modCh_other h _ s

/-! ### modMonitor -/

@[simp] theorem modMonitor_power (c : Chan) (f : Monitor → Monitor) (s : State) : (modMonitor c f s).power = s.power :=
  modCh_power c _ s
@[simp] theorem modMonitor_pins (c : Chan) (f : Monitor → Monitor) (s : State) : (modMonitor c f s).pins = s.pins :=
  modCh_pins c _ s
@[simp] theorem modMonitor_line (c : Chan) (f : Monitor → Monitor) (s : State) : (modMonitor c f s).line = s.line :=
  modCh_line c _ s
@[simp] theorem modMonitor_route (c : Chan) (f : Monitor → Monitor) (s : State) : (modMonitor c f s).route = s.route :=
  modCh_route c _ s
@[simp] theorem modMonitor_comps (c : Chan) (f : Monitor → Monitor) (s : State) : (modMonitor c f s).comps = s.comps :=
  modCh_comps c _ s
@[simp] theorem modMonitor_store (c : Chan) (f : Monitor → Monitor) (s : State) : (modMonitor c f s).store = s.store :=
  modCh_store c _ s
@[simp] theorem modMonitor_journal (c : Chan) (f : Monitor → Monitor) (s : State) : (modMonitor c f s).journal = s.journal :=
  modCh_journal c _ s
@[simp] theorem modMonitor_req (c : Chan) (f : Monitor → Monitor) (s : State) : (modMonitor c f s).req = s.req :=
  modCh_req c _ s
@[simp] theorem modMonitor_met (c : Chan) (f : Monitor → Monitor) (s : State) : (modMonitor c f s).met = s.met :=
  modCh_met c _ s
@[simp] theorem modMonitor_ctl (c : Chan) (f : Monitor → Monitor) (s : State) : (modMonitor c f s).ctl = s.ctl :=
  modCh_ctl c _ s
@[simp] theorem modMonitor_nv (c : Chan) (f : Monitor → Monitor) (s : State) : (modMonitor c f s).nv = s.nv :=
  modCh_nv c _ s
@[simp] theorem modMonitor_free (c : Chan) (f : Monitor → Monitor) (s : State) : (modMonitor c f s).free = s.free :=
  modCh_free c _ s
@[simp] theorem modMonitor_pending (c : Chan) (f : Monitor → Monitor) (s : State) : (modMonitor c f s).pending = s.pending :=
  modCh_pending c _ s
@[simp] theorem ch_modMonitor_same (c : Chan) (f : Monitor → Monitor) (s : State) :
    (modMonitor c f s).ch c = { s.ch c with monitor := f (s.ch c).monitor } :=
  ch_modCh_same c _ s
theorem ch_modMonitor_other {c d : Chan} (h : d ≠ c) (f : Monitor → Monitor) (s : State) : (modMonitor c f s).ch d = s.ch d :=
  ch_modCh_other h _ s

/-! ### modLine -/

@[simp] theorem modLine_power (f : Line → Line) (s : State) : (modLine f s).power = s.power := rfl
@[simp] theorem modLine_pins (f : Line → Line) (s : State) : (modLine f s).pins = s.pins := rfl
@[simp] theorem modLine_line (f : Line → Line) (s : State) : (modLine f s).line = f s.line := rfl
@[simp] theorem modLine_chA (f : Line → Line) (s : State) : (modLine f s).chA = s.chA := rfl
@[simp] theorem modLine_chB (f : Line → Line) (s : State) : (modLine f s).chB = s.chB := rfl
@[simp] theorem modLine_route (f : Line → Line) (s : State) : (modLine f s).route = s.route := rfl
@[simp] theorem modLine_comps (f : Line → Line) (s : State) : (modLine f s).comps = s.comps := rfl
@[simp] theorem modLine_store (f : Line → Line) (s : State) : (modLine f s).store = s.store := rfl
@[simp] theorem modLine_journal (f : Line → Line) (s : State) : (modLine f s).journal = s.journal := rfl
@[simp] theorem modLine_req (f : Line → Line) (s : State) : (modLine f s).req = s.req := rfl
@[simp] theorem modLine_met (f : Line → Line) (s : State) : (modLine f s).met = s.met := rfl
@[simp] theorem modLine_ctl (f : Line → Line) (s : State) : (modLine f s).ctl = s.ctl := rfl
@[simp] theorem modLine_nv (f : Line → Line) (s : State) : (modLine f s).nv = s.nv := rfl
@[simp] theorem modLine_free (f : Line → Line) (s : State) : (modLine f s).free = s.free := rfl
@[simp] theorem modLine_pending (f : Line → Line) (s : State) : (modLine f s).pending = s.pending := rfl
@[simp] theorem ch_modLine (f : Line → Line) (s : State) (c : Chan) : (modLine f s).ch c = s.ch c := by
  cases c <;> rfl

/-! ### modPower -/

@[simp] theorem modPower_power (f : Power → Power) (s : State) : (modPower f s).power = f s.power := rfl
@[simp] theorem modPower_pins (f : Power → Power) (s : State) : (modPower f s).pins = s.pins := rfl
@[simp] theorem modPower_line (f : Power → Power) (s : State) : (modPower f s).line = s.line := rfl
@[simp] theorem modPower_chA (f : Power → Power) (s : State) : (modPower f s).chA = s.chA := rfl
@[simp] theorem modPower_chB (f : Power → Power) (s : State) : (modPower f s).chB = s.chB := rfl
@[simp] theorem modPower_route (f : Power → Power) (s : State) : (modPower f s).route = s.route := rfl
@[simp] theorem modPower_comps (f : Power → Power) (s : State) : (modPower f s).comps = s.comps := rfl
@[simp] theorem modPower_store (f : Power → Power) (s : State) : (modPower f s).store = s.store := rfl
@[simp] theorem modPower_journal (f : Power → Power) (s : State) : (modPower f s).journal = s.journal := rfl
@[simp] theorem modPower_req (f : Power → Power) (s : State) : (modPower f s).req = s.req := rfl
@[simp] theorem modPower_met (f : Power → Power) (s : State) : (modPower f s).met = s.met := rfl
@[simp] theorem modPower_ctl (f : Power → Power) (s : State) : (modPower f s).ctl = s.ctl := rfl
@[simp] theorem modPower_nv (f : Power → Power) (s : State) : (modPower f s).nv = s.nv := rfl
@[simp] theorem modPower_free (f : Power → Power) (s : State) : (modPower f s).free = s.free := rfl
@[simp] theorem modPower_pending (f : Power → Power) (s : State) : (modPower f s).pending = s.pending := rfl
@[simp] theorem ch_modPower (f : Power → Power) (s : State) (c : Chan) : (modPower f s).ch c = s.ch c := by
  cases c <;> rfl

/-! ### modRoute -/

@[simp] theorem modRoute_power (f : Route → Route) (s : State) : (modRoute f s).power = s.power := rfl
@[simp] theorem modRoute_pins (f : Route → Route) (s : State) : (modRoute f s).pins = s.pins := rfl
@[simp] theorem modRoute_line (f : Route → Route) (s : State) : (modRoute f s).line = s.line := rfl
@[simp] theorem modRoute_chA (f : Route → Route) (s : State) : (modRoute f s).chA = s.chA := rfl
@[simp] theorem modRoute_chB (f : Route → Route) (s : State) : (modRoute f s).chB = s.chB := rfl
@[simp] theorem modRoute_route (f : Route → Route) (s : State) : (modRoute f s).route = f s.route := rfl
@[simp] theorem modRoute_comps (f : Route → Route) (s : State) : (modRoute f s).comps = s.comps := rfl
@[simp] theorem modRoute_store (f : Route → Route) (s : State) : (modRoute f s).store = s.store := rfl
@[simp] theorem modRoute_journal (f : Route → Route) (s : State) : (modRoute f s).journal = s.journal := rfl
@[simp] theorem modRoute_req (f : Route → Route) (s : State) : (modRoute f s).req = s.req := rfl
@[simp] theorem modRoute_met (f : Route → Route) (s : State) : (modRoute f s).met = s.met := rfl
@[simp] theorem modRoute_ctl (f : Route → Route) (s : State) : (modRoute f s).ctl = s.ctl := rfl
@[simp] theorem modRoute_nv (f : Route → Route) (s : State) : (modRoute f s).nv = s.nv := rfl
@[simp] theorem modRoute_free (f : Route → Route) (s : State) : (modRoute f s).free = s.free := rfl
@[simp] theorem modRoute_pending (f : Route → Route) (s : State) : (modRoute f s).pending = s.pending := rfl
@[simp] theorem ch_modRoute (f : Route → Route) (s : State) (c : Chan) : (modRoute f s).ch c = s.ch c := by
  cases c <;> rfl

/-! ### modComps -/

@[simp] theorem modComps_power (f : Comps → Comps) (s : State) : (modComps f s).power = s.power := rfl
@[simp] theorem modComps_pins (f : Comps → Comps) (s : State) : (modComps f s).pins = s.pins := rfl
@[simp] theorem modComps_line (f : Comps → Comps) (s : State) : (modComps f s).line = s.line := rfl
@[simp] theorem modComps_chA (f : Comps → Comps) (s : State) : (modComps f s).chA = s.chA := rfl
@[simp] theorem modComps_chB (f : Comps → Comps) (s : State) : (modComps f s).chB = s.chB := rfl
@[simp] theorem modComps_route (f : Comps → Comps) (s : State) : (modComps f s).route = s.route := rfl
@[simp] theorem modComps_comps (f : Comps → Comps) (s : State) : (modComps f s).comps = f s.comps := rfl
@[simp] theorem modComps_store (f : Comps → Comps) (s : State) : (modComps f s).store = s.store := rfl
@[simp] theorem modComps_journal (f : Comps → Comps) (s : State) : (modComps f s).journal = s.journal := rfl
@[simp] theorem modComps_req (f : Comps → Comps) (s : State) : (modComps f s).req = s.req := rfl
@[simp] theorem modComps_met (f : Comps → Comps) (s : State) : (modComps f s).met = s.met := rfl
@[simp] theorem modComps_ctl (f : Comps → Comps) (s : State) : (modComps f s).ctl = s.ctl := rfl
@[simp] theorem modComps_nv (f : Comps → Comps) (s : State) : (modComps f s).nv = s.nv := rfl
@[simp] theorem modComps_free (f : Comps → Comps) (s : State) : (modComps f s).free = s.free := rfl
@[simp] theorem modComps_pending (f : Comps → Comps) (s : State) : (modComps f s).pending = s.pending := rfl
@[simp] theorem ch_modComps (f : Comps → Comps) (s : State) (c : Chan) : (modComps f s).ch c = s.ch c := by
  cases c <;> rfl

/-! ### modStore -/

@[simp] theorem modStore_power (f : Store → Store) (s : State) : (modStore f s).power = s.power := rfl
@[simp] theorem modStore_pins (f : Store → Store) (s : State) : (modStore f s).pins = s.pins := rfl
@[simp] theorem modStore_line (f : Store → Store) (s : State) : (modStore f s).line = s.line := rfl
@[simp] theorem modStore_chA (f : Store → Store) (s : State) : (modStore f s).chA = s.chA := rfl
@[simp] theorem modStore_chB (f : Store → Store) (s : State) : (modStore f s).chB = s.chB := rfl
@[simp] theorem modStore_route (f : Store → Store) (s : State) : (modStore f s).route = s.route := rfl
@[simp] theorem modStore_comps (f : Store → Store) (s : State) : (modStore f s).comps = s.comps := rfl
@[simp] theorem modStore_store (f : Store → Store) (s : State) : (modStore f s).store = f s.store := rfl
@[simp] theorem modStore_journal (f : Store → Store) (s : State) : (modStore f s).journal = s.journal := rfl
@[simp] theorem modStore_req (f : Store → Store) (s : State) : (modStore f s).req = s.req := rfl
@[simp] theorem modStore_met (f : Store → Store) (s : State) : (modStore f s).met = s.met := rfl
@[simp] theorem modStore_ctl (f : Store → Store) (s : State) : (modStore f s).ctl = s.ctl := rfl
@[simp] theorem modStore_nv (f : Store → Store) (s : State) : (modStore f s).nv = s.nv := rfl
@[simp] theorem modStore_free (f : Store → Store) (s : State) : (modStore f s).free = s.free := rfl
@[simp] theorem modStore_pending (f : Store → Store) (s : State) : (modStore f s).pending = s.pending := rfl
@[simp] theorem ch_modStore (f : Store → Store) (s : State) (c : Chan) : (modStore f s).ch c = s.ch c := by
  cases c <;> rfl

/-! ### modJournal -/

@[simp] theorem modJournal_power (f : Journal → Journal) (s : State) : (modJournal f s).power = s.power := rfl
@[simp] theorem modJournal_pins (f : Journal → Journal) (s : State) : (modJournal f s).pins = s.pins := rfl
@[simp] theorem modJournal_line (f : Journal → Journal) (s : State) : (modJournal f s).line = s.line := rfl
@[simp] theorem modJournal_chA (f : Journal → Journal) (s : State) : (modJournal f s).chA = s.chA := rfl
@[simp] theorem modJournal_chB (f : Journal → Journal) (s : State) : (modJournal f s).chB = s.chB := rfl
@[simp] theorem modJournal_route (f : Journal → Journal) (s : State) : (modJournal f s).route = s.route := rfl
@[simp] theorem modJournal_comps (f : Journal → Journal) (s : State) : (modJournal f s).comps = s.comps := rfl
@[simp] theorem modJournal_store (f : Journal → Journal) (s : State) : (modJournal f s).store = s.store := rfl
@[simp] theorem modJournal_journal (f : Journal → Journal) (s : State) : (modJournal f s).journal = f s.journal := rfl
@[simp] theorem modJournal_req (f : Journal → Journal) (s : State) : (modJournal f s).req = s.req := rfl
@[simp] theorem modJournal_met (f : Journal → Journal) (s : State) : (modJournal f s).met = s.met := rfl
@[simp] theorem modJournal_ctl (f : Journal → Journal) (s : State) : (modJournal f s).ctl = s.ctl := rfl
@[simp] theorem modJournal_nv (f : Journal → Journal) (s : State) : (modJournal f s).nv = s.nv := rfl
@[simp] theorem modJournal_free (f : Journal → Journal) (s : State) : (modJournal f s).free = s.free := rfl
@[simp] theorem modJournal_pending (f : Journal → Journal) (s : State) : (modJournal f s).pending = s.pending := rfl
@[simp] theorem ch_modJournal (f : Journal → Journal) (s : State) (c : Chan) : (modJournal f s).ch c = s.ch c := by
  cases c <;> rfl

/-! ### modReq -/

@[simp] theorem modReq_power (f : Requests → Requests) (s : State) : (modReq f s).power = s.power := rfl
@[simp] theorem modReq_pins (f : Requests → Requests) (s : State) : (modReq f s).pins = s.pins := rfl
@[simp] theorem modReq_line (f : Requests → Requests) (s : State) : (modReq f s).line = s.line := rfl
@[simp] theorem modReq_chA (f : Requests → Requests) (s : State) : (modReq f s).chA = s.chA := rfl
@[simp] theorem modReq_chB (f : Requests → Requests) (s : State) : (modReq f s).chB = s.chB := rfl
@[simp] theorem modReq_route (f : Requests → Requests) (s : State) : (modReq f s).route = s.route := rfl
@[simp] theorem modReq_comps (f : Requests → Requests) (s : State) : (modReq f s).comps = s.comps := rfl
@[simp] theorem modReq_store (f : Requests → Requests) (s : State) : (modReq f s).store = s.store := rfl
@[simp] theorem modReq_journal (f : Requests → Requests) (s : State) : (modReq f s).journal = s.journal := rfl
@[simp] theorem modReq_req (f : Requests → Requests) (s : State) : (modReq f s).req = f s.req := rfl
@[simp] theorem modReq_met (f : Requests → Requests) (s : State) : (modReq f s).met = s.met := rfl
@[simp] theorem modReq_ctl (f : Requests → Requests) (s : State) : (modReq f s).ctl = s.ctl := rfl
@[simp] theorem modReq_nv (f : Requests → Requests) (s : State) : (modReq f s).nv = s.nv := rfl
@[simp] theorem modReq_free (f : Requests → Requests) (s : State) : (modReq f s).free = s.free := rfl
@[simp] theorem modReq_pending (f : Requests → Requests) (s : State) : (modReq f s).pending = s.pending := rfl
@[simp] theorem ch_modReq (f : Requests → Requests) (s : State) (c : Chan) : (modReq f s).ch c = s.ch c := by
  cases c <;> rfl

/-! ### modMet -/

@[simp] theorem modMet_power (f : Metrology → Metrology) (s : State) : (modMet f s).power = s.power := rfl
@[simp] theorem modMet_pins (f : Metrology → Metrology) (s : State) : (modMet f s).pins = s.pins := rfl
@[simp] theorem modMet_line (f : Metrology → Metrology) (s : State) : (modMet f s).line = s.line := rfl
@[simp] theorem modMet_chA (f : Metrology → Metrology) (s : State) : (modMet f s).chA = s.chA := rfl
@[simp] theorem modMet_chB (f : Metrology → Metrology) (s : State) : (modMet f s).chB = s.chB := rfl
@[simp] theorem modMet_route (f : Metrology → Metrology) (s : State) : (modMet f s).route = s.route := rfl
@[simp] theorem modMet_comps (f : Metrology → Metrology) (s : State) : (modMet f s).comps = s.comps := rfl
@[simp] theorem modMet_store (f : Metrology → Metrology) (s : State) : (modMet f s).store = s.store := rfl
@[simp] theorem modMet_journal (f : Metrology → Metrology) (s : State) : (modMet f s).journal = s.journal := rfl
@[simp] theorem modMet_req (f : Metrology → Metrology) (s : State) : (modMet f s).req = s.req := rfl
@[simp] theorem modMet_met (f : Metrology → Metrology) (s : State) : (modMet f s).met = f s.met := rfl
@[simp] theorem modMet_ctl (f : Metrology → Metrology) (s : State) : (modMet f s).ctl = s.ctl := rfl
@[simp] theorem modMet_nv (f : Metrology → Metrology) (s : State) : (modMet f s).nv = s.nv := rfl
@[simp] theorem modMet_free (f : Metrology → Metrology) (s : State) : (modMet f s).free = s.free := rfl
@[simp] theorem modMet_pending (f : Metrology → Metrology) (s : State) : (modMet f s).pending = s.pending := rfl
@[simp] theorem ch_modMet (f : Metrology → Metrology) (s : State) (c : Chan) : (modMet f s).ch c = s.ch c := by
  cases c <;> rfl

/-! ### modCtl -/

@[simp] theorem modCtl_power (f : Control → Control) (s : State) : (modCtl f s).power = s.power := rfl
@[simp] theorem modCtl_pins (f : Control → Control) (s : State) : (modCtl f s).pins = s.pins := rfl
@[simp] theorem modCtl_line (f : Control → Control) (s : State) : (modCtl f s).line = s.line := rfl
@[simp] theorem modCtl_chA (f : Control → Control) (s : State) : (modCtl f s).chA = s.chA := rfl
@[simp] theorem modCtl_chB (f : Control → Control) (s : State) : (modCtl f s).chB = s.chB := rfl
@[simp] theorem modCtl_route (f : Control → Control) (s : State) : (modCtl f s).route = s.route := rfl
@[simp] theorem modCtl_comps (f : Control → Control) (s : State) : (modCtl f s).comps = s.comps := rfl
@[simp] theorem modCtl_store (f : Control → Control) (s : State) : (modCtl f s).store = s.store := rfl
@[simp] theorem modCtl_journal (f : Control → Control) (s : State) : (modCtl f s).journal = s.journal := rfl
@[simp] theorem modCtl_req (f : Control → Control) (s : State) : (modCtl f s).req = s.req := rfl
@[simp] theorem modCtl_met (f : Control → Control) (s : State) : (modCtl f s).met = s.met := rfl
@[simp] theorem modCtl_ctl (f : Control → Control) (s : State) : (modCtl f s).ctl = f s.ctl := rfl
@[simp] theorem modCtl_nv (f : Control → Control) (s : State) : (modCtl f s).nv = s.nv := rfl
@[simp] theorem modCtl_free (f : Control → Control) (s : State) : (modCtl f s).free = s.free := rfl
@[simp] theorem modCtl_pending (f : Control → Control) (s : State) : (modCtl f s).pending = s.pending := rfl
@[simp] theorem ch_modCtl (f : Control → Control) (s : State) (c : Chan) : (modCtl f s).ch c = s.ch c := by
  cases c <;> rfl

end Sys2Proof.Machine
end

