-- ==== Sys2Proof/Laws/OffLine.lean ====
section
/-! SUPPORT. What placing and sending frames leaves alone: for each operation over the queues, the replies, the notices
and the closing of a command, one equality of `State.offLine`. -/
namespace Sys2Proof.Machine

/-! ### Reading the state apart from the line -/

@[simp] theorem offLine_pins (s : State) : s.offLine.pins = s.pins := rfl
@[simp] theorem offLine_route (s : State) : s.offLine.route = s.route := rfl
@[simp] theorem offLine_comps (s : State) : s.offLine.comps = s.comps := rfl
@[simp] theorem offLine_store (s : State) : s.offLine.store = s.store := rfl
@[simp] theorem offLine_journal (s : State) : s.offLine.journal = s.journal := rfl
@[simp] theorem offLine_met (s : State) : s.offLine.met = s.met := rfl
@[simp] theorem offLine_nv (s : State) : s.offLine.nv = s.nv := rfl
@[simp] theorem offLine_free (s : State) : s.offLine.free = s.free := rfl
@[simp] theorem offLine_pending (s : State) : s.offLine.pending = s.pending := rfl
@[simp] theorem offLine_powerState (s : State) : s.offLine.power.state = s.power.state := rfl
@[simp] theorem offLine_level (s : State) : s.offLine.power.level = s.power.level := rfl
@[simp] theorem offLine_lockout (s : State) : s.offLine.ctl.lockout = s.ctl.lockout := rfl
@[simp] theorem offLine_restart (s : State) : s.offLine.req.restart = s.req.restart := rfl
@[simp] theorem ch_offLine (s : State) (c : Chan) : s.offLine.ch c = (s.ch c).offLine := by cases c <;> rfl
@[simp] theorem Channel.offLine_ctx (x : Channel) : x.offLine.ctx = x.ctx := rfl
@[simp] theorem Channel.offLine_gate (x : Channel) : x.offLine.gate = x.gate := rfl
@[simp] theorem Channel.offLine_monitor (x : Channel) : x.offLine.monitor = x.monitor := rfl
@[simp] theorem Channel.offLine_silence (x : Channel) : x.offLine.silence = x.silence := rfl
@[simp] theorem offLine_offLine (s : State) : s.offLine.offLine = s.offLine := rfl

/-- Two states that agree apart from the line agree in every field that is told apart from it. -/
theorem offLine_field {s t : State} (h : t.offLine = s.offLine) {α : Type} (f : State → α)
    (hf : ∀ u : State, f u = f u.offLine) : f t = f s := by rw [hf t, h, ← hf s]

/-! ### Updates of other blocks pass through -/

theorem offLine_modCh (c : Chan) (f : Channel → Channel) (s : State)
    (hf : ∀ x : Channel, (f x).offLine = (f x.offLine).offLine) :
    (modCh c f s).offLine = (modCh c f s.offLine).offLine := by
  cases c
  · simpa [modCh, State.setCh, State.offLine] using ⟨hf s.chA, rfl⟩
  · simpa [modCh, State.setCh, State.offLine] using ⟨rfl, hf s.chB⟩

@[simp] theorem offLine_modRoute (f : Route → Route) (s : State) : (modRoute f s).offLine = modRoute f s.offLine := rfl
@[simp] theorem offLine_modComps (f : Comps → Comps) (s : State) : (modComps f s).offLine = modComps f s.offLine := rfl
@[simp] theorem offLine_modStore (f : Store → Store) (s : State) : (modStore f s).offLine = modStore f s.offLine := rfl
@[simp] theorem offLine_modJournal (f : Journal → Journal) (s : State) :
    (modJournal f s).offLine = modJournal f s.offLine := rfl
@[simp] theorem offLine_modMet (f : Metrology → Metrology) (s : State) : (modMet f s).offLine = modMet f s.offLine := rfl
@[simp] theorem offLine_modCtx (c : Chan) (f : Ctx → Ctx) (s : State) :
    (modCtx c f s).offLine = modCtx c f s.offLine := by cases c <;> rfl
@[simp] theorem offLine_modGate (c : Chan) (f : Gate → Gate) (s : State) :
    (modGate c f s).offLine = modGate c f s.offLine := by cases c <;> rfl
@[simp] theorem offLine_modMonitor (c : Chan) (f : Monitor → Monitor) (s : State) :
    (modMonitor c f s).offLine = modMonitor c f s.offLine := by cases c <;> rfl

/-- An update of the line's queues and sequences, which leaves the counters, is not seen. -/
theorem offLine_modLine (f : Line → Line) (s : State) (hf : (f s.line).fcnt = s.line.fcnt)
    (hc : (f s.line).ccnt = s.line.ccnt) : (modLine f s).offLine = s.offLine := by
  simp [modLine, State.offLine, hf, hc]

/-- A held print, or the notice values noted within a command, are not seen. -/
theorem offLine_modCh_marks (c : Chan) (f : Channel → Channel) (s : State)
    (hf : ∀ x : Channel, (f x).offLine = x.offLine) : (modCh c f s).offLine = s.offLine := by
  cases c <;> simp [modCh, State.setCh, State.offLine, hf]

/-- The notice timer and the pending mark of a meter are not seen. -/
theorem offLine_modMeter_marks (c : Chan) (f : Meter → Meter) (s : State)
    (hf : ∀ m : Meter, { f m with noticeTimer := false, noticePending := false } =
      { m with noticeTimer := false, noticePending := false }) : (modMeter c f s).offLine = s.offLine :=
  offLine_modCh_marks c _ s fun x => by simp [Channel.offLine, hf]

/-! ### The C-bound queue -/

@[simp] theorem queueC_offLine (f : CFrame) (r : Bool) (s : State) : (queueC f r s).offLine = s.offLine := rfl
@[simp] theorem waitC_offLine (f : CFrame) (s : State) : (waitC f s).offLine = s.offLine := rfl
@[simp] theorem takeCSeq_offLine (s : State) : (takeCSeq s).offLine = s.offLine := rfl
@[simp] theorem endRequest_offLine (st : Byte) (s : State) : (endRequest st s).offLine = s.offLine := rfl

@[simp] theorem putPrint_offLine (p : Print) (s : State) : (putPrint p s).offLine = s.offLine := by
  unfold putPrint
  split
  · simp
  split
  · exact offLine_modCh_marks _ _ _ fun _ => rfl
  · simp

@[simp] theorem printSlotEmptied_offLine (c : Chan) (s : State) : (printSlotEmptied c s).offLine = s.offLine := by
  unfold printSlotEmptied
  split
  · rw [putPrint_offLine]
    exact offLine_modCh_marks _ _ _ fun _ => rfl
  · rfl

@[simp] theorem handPlace_offLine (r : Bool) (s : State) : (handPlace r s).offLine = s.offLine := by
  unfold handPlace
  split
  · rfl
  · dsimp only
    split <;> simp <;> rfl

@[simp] theorem startC_offLine (s : State) : (startC s).offLine = s.offLine := by
  unfold startC
  split
  · split
    · simp
      rfl
    · rfl
  · rfl

@[simp] theorem sendReply_offLine (r : Reply) (s : State) : (sendReply r s).offLine = s.offLine := by
  unfold sendReply
  split <;> simp

@[simp] theorem reply_offLine (st : Byte) (r : Option RefCode) (x : Result) (s : State) :
    (reply st r x s).offLine = s.offLine := by
  unfold reply
  split <;> simp

@[simp] theorem accept_offLine (st : Byte) (x : Result) (s : State) : (accept st x s).offLine = s.offLine :=
  reply_offLine _ _ _ _

@[simp] theorem refuse_offLine (st : Byte) (r : RefCode) (s : State) : (refuse st r s).offLine = s.offLine :=
  reply_offLine _ _ _ _

@[simp] theorem busyReply_offLine (st q k : Byte) (s : State) : (busyReply st q k s).offLine = s.offLine := by
  unfold busyReply
  split <;> simp

@[simp] theorem sendAnswer_offLine (a : Answer) (s : State) : (sendAnswer a s).offLine = s.offLine := by
  unfold sendAnswer
  split
  · simp
  · simp
    rfl

@[simp] theorem sendPrint_offLine (p : Print) (s : State) : (sendPrint p s).offLine = s.offLine := by
  simp [sendPrint]

@[simp] theorem putNotice_offLine (c : Chan) (n : Notice) (s : State) : (putNotice c n s).offLine = s.offLine := by
  unfold putNotice
  dsimp only
  split
  · rfl
  split
  · rfl
  split <;> simp

/-! ### The F-bound queue -/

@[simp] theorem startF_offLine (s : State) : (startF s).offLine = s.offLine := by
  unfold startF
  split
  · split <;> rfl
  · rfl

@[simp] theorem withdrawOrder_offLine (c : Chan) (s : State) : (withdrawOrder c s).offLine = s.offLine := rfl

@[simp] theorem placeOrder_offLine (c : Chan) (p : Pos) (n : Byte) (s : State) :
    (placeOrder c p n s).offLine = s.offLine := by
  unfold placeOrder
  split
  · simp
    rfl
  · rfl

/-! ### Flow notices -/

@[simp] theorem produceNotice_offLine (c : Chan) (s : State) : (produceNotice c s).offLine = s.offLine := by
  have h : ∀ u : State, (modMeter c (fun m => { m with noticePending := false })
      (modCh c (fun x => { x with noticeRef := x.noticeRef.map fun _ => noticeOf s c }) u)).offLine = u.offLine := by
    intro u
    refine (offLine_modMeter_marks _ _ _ ?_).trans (offLine_modCh_marks _ _ _ ?_) <;> exact fun _ => rfl
  unfold produceNotice
  dsimp only
  split
  · exact h s
  · rw [putNotice_offLine]
    refine (offLine_modMeter_marks _ _ _ ?_).trans (h s)
    exact fun _ => rfl

@[simp] theorem valueNotice_offLine (c : Chan) (s : State) : (valueNotice c s).offLine = s.offLine := by
  unfold valueNotice
  split
  · rfl
  split
  · exact offLine_modMeter_marks _ _ _ fun _ => rfl
  split
  · exact offLine_modMeter_marks _ _ _ fun _ => rfl
  · simp

@[simp] theorem settleNotice_offLine (c : Chan) (s : State) : (settleNotice c s).offLine = s.offLine := by
  unfold settleNotice
  dsimp only
  refine (offLine_modCh_marks _ _ _ ?_).trans ?_
  · exact fun _ => rfl
  split
  · split <;> simp
  · rfl

/-! ### What opens and closes a command -/

@[simp] theorem noteValues_offLine (s : State) : (noteValues s).offLine = s.offLine := rfl

@[simp] theorem judgeAlert_offLine (s : State) : (judgeAlert s).offLine = s.offLine := rfl

@[simp] theorem judgeStandby_offLine (s : State) : (judgeStandby s).offLine = s.offLine := rfl

/-- What closes a command is seen only where it ends SHUTDOWN. -/
theorem finish_offLine {s : State} (h : s.power.state ≠ .shutdown) : (finish s).offLine = s.offLine := by
  have h' : (settleNotice .b (settleNotice .a s)).offLine = s.offLine := by simp
  have hp : (settleNotice .b (settleNotice .a s)).power.state = s.power.state := by
    exact offLine_field h' (fun u => u.power.state) fun _ => rfl
  unfold finish
  rw [judgeStandby_offLine, judgeAlert_offLine, judgePowerOff, if_neg]
  · exact h'
  · simp [hp, h]

end Sys2Proof.Machine
end

