-- ==== Sys2Proof/Laws/Placing.lean ====
section
/-! SUPPORT. Where frames stand on port C: a frame that has found its place keeps it until it is sent, and a reply that
finds one ends its request. -/
namespace Sys2Proof.Machine

/-! ### A placed frame stays placed -/

theorem placedC_of_line {s t : State} {f : CFrame} (h : t.line = s.line) : placedC t f ↔ placedC s f := by
  simp [placedC, h]

theorem placedC_queueC {s : State} {f g : CFrame} {r : Bool} (h : placedC s f) : placedC (queueC g r s) f := by
  obtain h | ⟨e, he, hf⟩ := h
  · exact .inl h
  · exact .inr ⟨e, List.mem_append_left _ he, hf⟩

theorem placedC_queued (s : State) (f : CFrame) (r : Bool) : placedC (queueC f r s) f :=
  .inr ⟨_, List.mem_append_right _ (List.mem_singleton.mpr rfl), rfl⟩

theorem placedC_waitC {s : State} {f g : CFrame} (h : placedC s f) : placedC (waitC g s) f := h

theorem placedC_takeCSeq {s : State} {f : CFrame} (h : placedC s f) : placedC (takeCSeq s) f := h

theorem placedC_endRequest {s : State} {f : CFrame} {st : Byte} (h : placedC s f) : placedC (endRequest st s) f := h

theorem placedC_modCh {s : State} {f : CFrame} {c : Chan} {g : Channel → Channel} (h : placedC s f) :
    placedC (modCh c g s) f := (placedC_of_line (modCh_line c g s)).mpr h

theorem placedC_modMeter {s : State} {f : CFrame} {c : Chan} {g : Meter → Meter} (h : placedC s f) :
    placedC (modMeter c g s) f := placedC_modCh h

theorem placedC_putPrint {s : State} {f : CFrame} {p : Print} (h : placedC s f) : placedC (putPrint p s) f := by
  unfold putPrint
  split
  · exact placedC_takeCSeq (placedC_queueC h)
  split
  · exact placedC_modCh h
  · exact placedC_takeCSeq (placedC_waitC h)

theorem placedC_printSlotEmptied {s : State} {f : CFrame} {c : Chan} (h : placedC s f) :
    placedC (printSlotEmptied c s) f := by
  unfold printSlotEmptied
  split
  · exact placedC_putPrint (placedC_modCh h)
  · exact h

theorem placedC_handPlace {s : State} {f : CFrame} {r : Bool} (h : placedC s f) : placedC (handPlace r s) f := by
  unfold handPlace
  split
  · exact h
  · dsimp only
    have h' : ∀ (g : CFrame) (k : Line → List CFrame),
        placedC (queueC g r (modLine (fun l => { l with cwait := k l }) s)) f := fun g k => placedC_queueC h
    split
    · exact placedC_endRequest (h' _ _)
    · exact placedC_printSlotEmptied (h' _ _)
    all_goals exact h' _ _

theorem placedC_startC {s : State} {f : CFrame} (h : placedC s f) : placedC (startC s) f := by
  unfold startC
  split
  · split
    · rename_i e rest hc hq
      apply placedC_handPlace
      obtain h | ⟨x, hx, hf⟩ := h
      · rw [hc] at h
        cases h
      · rw [hq] at hx
        obtain rfl | hx := List.mem_cons.mp hx
        · exact .inl (congrArg some hf)
        · exact .inr ⟨x, hx, hf⟩
    · exact h
  · exact h

/-- A flow notice. -/
def isNotice : CFrame → Bool
  | .notice _ _ _ => true
  | .fwd _ | .print _ _ | .reply _ | .answer _ => false

theorem isNoticeOf_isNotice {c : Chan} {f : CFrame} (h : isNoticeOf c f = true) : isNotice f = true := by
  cases f <;> simp [isNoticeOf, isNotice] at *

/-- A notice takes the place of an earlier notice only. -/
theorem placedC_putNotice {s : State} {f : CFrame} {c : Chan} {n : Notice} (hf : isNotice f = false)
    (h : placedC s f) : placedC (putNotice c n s) f := by
  unfold putNotice
  dsimp only
  split
  · obtain h | ⟨e, he, hef⟩ := h
    · exact .inl h
    · refine .inr ⟨e, ?_, hef⟩
      have hn : isNoticeOf c e.frame = false := by
        refine Bool.eq_false_iff.mpr fun hn => ?_
        have := isNoticeOf_isNotice hn
        rw [hef, hf] at this
        cases this
      exact List.mem_map.mpr ⟨e, he, by simp [hn]⟩
  split
  · exact h
  split
  · exact placedC_startC (placedC_queueC h)
  · exact h

theorem placedC_produceNotice {s : State} {f : CFrame} {c : Chan} (hf : isNotice f = false) (h : placedC s f) :
    placedC (produceNotice c s) f := by
  unfold produceNotice
  dsimp only
  split
  · exact placedC_modMeter (placedC_modCh h)
  · exact placedC_putNotice hf (placedC_modMeter (placedC_modMeter (placedC_modCh h)))

theorem placedC_valueNotice {s : State} {f : CFrame} {c : Chan} (hf : isNotice f = false) (h : placedC s f) :
    placedC (valueNotice c s) f := by
  unfold valueNotice
  split
  · exact h
  split
  · exact placedC_modMeter h
  split
  · exact placedC_modMeter h
  · exact placedC_produceNotice hf h

theorem placedC_settleNotice {s : State} {f : CFrame} {c : Chan} (hf : isNotice f = false) (h : placedC s f) :
    placedC (settleNotice c s) f := by
  unfold settleNotice
  apply placedC_modCh
  split
  · split
    · exact h
    · exact placedC_valueNotice hf h
  · exact h

theorem placedC_finish {s : State} {f : CFrame} (hp : s.power.state ≠ .shutdown) (hf : isNotice f = false)
    (h : placedC s f) : placedC (finish s) f := by
  have h' : placedC (settleNotice .b (settleNotice .a s)) f := placedC_settleNotice hf (placedC_settleNotice hf h)
  have hs : (settleNotice .b (settleNotice .a s)).power.state = s.power.state :=
    offLine_field (by simp) (fun u => u.power.state) fun _ => rfl
  unfold finish judgePowerOff
  rw [if_neg (by simp [hs, hp])]
  exact h'

/-! ### Requests in progress only end -/

/-- Every request in progress in `t` was in progress in `s`. -/
def OnlyEnds (s t : State) : Prop := ∀ p ∈ t.req.inProgress, p ∈ s.req.inProgress

theorem OnlyEnds.refl (s : State) : OnlyEnds s s := fun _ h => h

theorem OnlyEnds.trans {s t u : State} (h : OnlyEnds s t) (k : OnlyEnds t u) : OnlyEnds s u := fun p hp => h p (k p hp)

theorem OnlyEnds.of_req {s t u : State} (h : OnlyEnds s t) (k : u.req = t.req) : OnlyEnds s u :=
  h.trans fun p hp => by rw [k] at hp; exact hp

theorem onlyEnds_endRequest (st : Byte) (s : State) : OnlyEnds s (endRequest st s) :=
  fun _ hp => (List.mem_filter.mp hp).1

theorem onlyEnds_putPrint (p : Print) (s : State) : OnlyEnds s (putPrint p s) := by
  unfold putPrint
  split
  · exact .refl _
  split
  · exact (OnlyEnds.refl s).of_req (modCh_req _ _ _)
  · exact .refl _

theorem onlyEnds_printSlotEmptied (c : Chan) (s : State) : OnlyEnds s (printSlotEmptied c s) := by
  unfold printSlotEmptied
  split
  · exact ((OnlyEnds.refl s).of_req (modCh_req _ _ _)).trans (onlyEnds_putPrint _ _)
  · exact .refl _

theorem onlyEnds_handPlace (r : Bool) (s : State) : OnlyEnds s (handPlace r s) := by
  unfold handPlace
  split
  · exact .refl _
  · dsimp only
    split
    · exact onlyEnds_endRequest _ _
    · exact onlyEnds_printSlotEmptied _ _
    all_goals exact .refl _

theorem onlyEnds_startC (s : State) : OnlyEnds s (startC s) := by
  unfold startC
  split
  · split
    · exact onlyEnds_handPlace _ _
    · exact .refl _
  · exact .refl _

theorem onlyEnds_putNotice (c : Chan) (n : Notice) (s : State) : OnlyEnds s (putNotice c n s) := by
  unfold putNotice
  dsimp only
  split
  · exact .refl _
  split
  · exact .refl _
  split
  · exact onlyEnds_startC _
  · exact .refl _

theorem onlyEnds_produceNotice (c : Chan) (s : State) : OnlyEnds s (produceNotice c s) := by
  unfold produceNotice
  dsimp only
  split
  · exact (OnlyEnds.refl s).of_req (by simp)
  · refine OnlyEnds.trans ?_ (onlyEnds_putNotice _ _ _)
    exact (OnlyEnds.refl s).of_req (by simp)

theorem onlyEnds_valueNotice (c : Chan) (s : State) : OnlyEnds s (valueNotice c s) := by
  unfold valueNotice
  split
  · exact .refl _
  split
  · exact (OnlyEnds.refl s).of_req (by simp)
  split
  · exact (OnlyEnds.refl s).of_req (by simp)
  · exact onlyEnds_produceNotice _ _

theorem onlyEnds_settleNotice (c : Chan) (s : State) : OnlyEnds s (settleNotice c s) := by
  unfold settleNotice
  dsimp only
  refine OnlyEnds.of_req ?_ (modCh_req _ _ _)
  split
  · split
    · exact .refl _
    · exact onlyEnds_valueNotice _ _
  · exact .refl _

theorem onlyEnds_finish (s : State) : OnlyEnds s (finish s) := by
  have h : OnlyEnds s (settleNotice .b (settleNotice .a s)) :=
    (onlyEnds_settleNotice _ _).trans (onlyEnds_settleNotice _ _)
  unfold finish judgePowerOff
  split
  · intro p hp
    cases hp
  · exact h

/-! ### A reply that finds a place -/

theorem answerPlace_some {s : State} (h : AnswerRoom s) : ∃ r, answerPlace s = some r := by
  unfold answerPlace commonFree reservedFree
  by_cases hc : commonUsed s.line < 14
  · simp [hc]
  · simp [hc, h.resolve_left hc]

/-- A reply that finds a place is placed, and its station's request ends (R15, R195). -/
theorem sendReply_placed {s : State} (h : AnswerRoom s) (r : Reply) :
    placedC (sendReply r s) (.reply r) ∧ ∀ p ∈ (sendReply r s).req.inProgress, p.station ≠ r.dst := by
  obtain ⟨x, hx⟩ := answerPlace_some h
  unfold sendReply
  rw [hx]
  refine ⟨placedC_startC (placedC_endRequest (placedC_queued _ _ _)), fun p hp => ?_⟩
  simpa using (List.mem_filter.mp (onlyEnds_startC _ p hp)).2

/-- The reply to a request in progress carries its code and header sequence (R4, R195). -/
theorem reply_answered {s : State} (h : AnswerRoom s) {p : InProgress}
    (hp : s.req.inProgress.find? (fun q => q.station = p.station) = some p) (refusal : Option RefCode) (x : Result) :
    Answered (reply p.station refusal x s) p.station p.seq p.code refusal x := by
  unfold reply
  rw [hp]
  have := sendReply_placed h { dst := p.station, seq := p.seq, code := p.code, refusal := refusal, result := x }
  exact ⟨this.1, this.2⟩

/-- A request that has ended stays ended when the command closes. -/
theorem answered_finish {s : State} (hp : s.power.state ≠ .shutdown) {st q k : Byte} {r : Option RefCode} {x : Result}
    (h : Answered s st q k r x) : Answered (finish s) st q k r x :=
  ⟨placedC_finish hp rfl h.placed, fun p hp => h.ended p (onlyEnds_finish s p hp)⟩

end Sys2Proof.Machine
end

