-- ==== Sys2Proof/Laws/Taking.lean ====
section
/-! SUPPORT. How a request is taken by a station that is ready, and the two courses a command then has: its reply is sent,
or it waits for an operation. -/
namespace Sys2Proof.Machine

/-! ### A request in progress goes on -/

/-- No reply to the station waits for a place. -/
def NoReply (station : Byte) (s : State) : Prop := ∀ r : Reply, .reply r ∈ s.line.cwait → r.dst ≠ station

/-- From `s` to `t`, a request of a station to which no reply waits stays in progress, and no reply to it comes to
wait. -/
def GoesOn (p : InProgress) (s t : State) : Prop :=
  NoReply p.station s → NoReply p.station t ∧ (p ∈ s.req.inProgress → p ∈ t.req.inProgress)

theorem GoesOn.refl (p : InProgress) (s : State) : GoesOn p s s := fun h => ⟨h, id⟩

theorem GoesOn.trans {p : InProgress} {s t u : State} (h : GoesOn p s t) (k : GoesOn p t u) : GoesOn p s u :=
  fun hs => ⟨(k (h hs).1).1, fun hp => (k (h hs).1).2 ((h hs).2 hp)⟩

theorem GoesOn.of_eq {p : InProgress} {s t : State} (hl : t.line.cwait = s.line.cwait) (hr : t.req = s.req) :
    GoesOn p s t := fun h => ⟨fun r => by rw [hl]; exact h r, by rw [hr]; exact id⟩

theorem goesOn_waitC {p : InProgress} {s : State} {f : CFrame} (h : isAnswerFrame f = false) :
    GoesOn p s (waitC f s) := by
  refine fun hs => ⟨fun r hr => ?_, id⟩
  obtain hr | hr := List.mem_append.mp hr
  · exact hs r hr
  · rw [← List.mem_singleton.mp hr] at h
    exact Bool.noConfusion h

theorem goesOn_putPrint (p : InProgress) (x : Print) (s : State) : GoesOn p s (putPrint x s) := by
  unfold putPrint
  split
  · exact GoesOn.of_eq rfl rfl
  split
  · exact GoesOn.of_eq (by rw [modCh_line]) (modCh_req _ _ _)
  · exact (goesOn_waitC rfl).trans (GoesOn.of_eq rfl rfl)

theorem goesOn_printSlotEmptied (p : InProgress) (c : Chan) (s : State) : GoesOn p s (printSlotEmptied c s) := by
  unfold printSlotEmptied
  split
  · exact (GoesOn.of_eq (by rw [modCh_line]) (modCh_req _ _ _)).trans (goesOn_putPrint _ _ _)
  · exact .refl _ _

theorem goesOn_handPlace (p : InProgress) (r : Bool) (s : State) : GoesOn p s (handPlace r s) := by
  unfold handPlace
  split
  · exact .refl _ _
  · rename_i f hf
    have hm : f ∈ s.line.cwait := List.mem_of_find?_eq_some hf
    have moved : GoesOn p s (queueC f r (modLine (fun l => { l with cwait := l.cwait.erase f }) s)) :=
      fun hs => ⟨fun x hx => hs x (List.mem_of_mem_erase hx), id⟩
    dsimp only
    split
    · rename_i x
      intro hs
      refine ⟨(moved hs).1, fun hp => List.mem_filter.mpr ⟨hp, ?_⟩⟩
      simpa using fun e => hs x hm e.symm
    · exact moved.trans (goesOn_printSlotEmptied _ _ _)
    all_goals exact moved

theorem goesOn_startC (p : InProgress) (s : State) : GoesOn p s (startC s) := by
  unfold startC
  split
  · split
    · exact GoesOn.trans (t := modLine _ s) (GoesOn.of_eq rfl rfl) (goesOn_handPlace _ _ _)
    · exact .refl _ _
  · exact .refl _ _

theorem goesOn_putNotice (p : InProgress) (c : Chan) (n : Notice) (s : State) : GoesOn p s (putNotice c n s) := by
  unfold putNotice
  dsimp only
  split
  · exact GoesOn.of_eq rfl rfl
  split
  · refine fun hs => ⟨fun r hr => ?_, id⟩
    obtain ⟨w, hw, he⟩ := List.mem_map.mp hr
    by_cases hn : isNoticeOf c w = true
    · rw [if_pos hn] at he
      cases he
    · rw [if_neg hn] at he
      exact hs r (he ▸ hw)
  split
  · exact GoesOn.trans (t := queueC _ false (takeCSeq s)) (GoesOn.of_eq rfl rfl) (goesOn_startC _ _)
  · exact GoesOn.trans (t := takeCSeq s) (GoesOn.of_eq rfl rfl) (goesOn_waitC rfl)

theorem goesOn_produceNotice (p : InProgress) (c : Chan) (s : State) : GoesOn p s (produceNotice c s) := by
  unfold produceNotice
  dsimp only
  split
  · exact GoesOn.of_eq (by simp) (by simp)
  · refine GoesOn.trans ?_ (goesOn_putNotice _ _ _ _)
    exact GoesOn.of_eq (by simp) (by simp)

theorem goesOn_valueNotice (p : InProgress) (c : Chan) (s : State) : GoesOn p s (valueNotice c s) := by
  unfold valueNotice
  split
  · exact .refl _ _
  split
  · exact GoesOn.of_eq (by simp) (by simp)
  split
  · exact GoesOn.of_eq (by simp) (by simp)
  · exact goesOn_produceNotice _ _ _

theorem goesOn_settleNotice (p : InProgress) (c : Chan) (s : State) : GoesOn p s (settleNotice c s) := by
  unfold settleNotice
  dsimp only
  refine GoesOn.trans ?_ (GoesOn.of_eq (by rw [modCh_line]) (modCh_req _ _ _))
  split
  · split
    · exact .refl _ _
    · exact goesOn_valueNotice _ _ _
  · exact .refl _ _

theorem goesOn_finish (p : InProgress) {s : State} (h : s.power.state ≠ .shutdown) : GoesOn p s (finish s) := by
  have hs : (settleNotice .b (settleNotice .a s)).power.state = s.power.state :=
    offLine_field (by simp) (fun u => u.power.state) fun _ => rfl
  unfold finish judgePowerOff
  rw [if_neg (by simp [hs, h])]
  exact ((goesOn_settleNotice _ _ _).trans (goesOn_settleNotice _ _ _)).trans (GoesOn.of_eq rfl rfl)

/-! ### Taking a request -/

/-- A station that is ready is ready when the command opens. -/
theorem ready_noteValues {s : State} {src : Byte} {k : Cls} (h : Ready s src k) : Ready (noteValues s) src k :=
  ⟨h.on, h.address, h.entry, h.free, h.unanswered, h.running⟩

/-- The state in which a ready station's request reaches its owner. -/
def taken (s : State) (src code seq : Byte) (k : Cls) : State :=
  beginRequest src code seq (actingClass s k) (noteValues s)

@[simp] theorem taken_offLine (s : State) (src code seq : Byte) (k : Cls) : (taken s src code seq k).offLine = s.offLine :=
  rfl
@[simp] theorem taken_line (s : State) (src code seq : Byte) (k : Cls) : (taken s src code seq k).line = s.line := rfl
@[simp] theorem taken_power (s : State) (src code seq : Byte) (k : Cls) : (taken s src code seq k).power = s.power := rfl
@[simp] theorem taken_pins (s : State) (src code seq : Byte) (k : Cls) : (taken s src code seq k).pins = s.pins := rfl
@[simp] theorem taken_route (s : State) (src code seq : Byte) (k : Cls) : (taken s src code seq k).route = s.route := rfl
@[simp] theorem taken_comps (s : State) (src code seq : Byte) (k : Cls) : (taken s src code seq k).comps = s.comps := rfl
@[simp] theorem taken_store (s : State) (src code seq : Byte) (k : Cls) : (taken s src code seq k).store = s.store := rfl
@[simp] theorem taken_journal (s : State) (src code seq : Byte) (k : Cls) :
    (taken s src code seq k).journal = s.journal := rfl
@[simp] theorem taken_met (s : State) (src code seq : Byte) (k : Cls) : (taken s src code seq k).met = s.met := rfl
@[simp] theorem taken_ctl (s : State) (src code seq : Byte) (k : Cls) : (taken s src code seq k).ctl = s.ctl := rfl
@[simp] theorem taken_inProgress (s : State) (src code seq : Byte) (k : Cls) :
    (taken s src code seq k).req.inProgress =
      s.req.inProgress ++ [{ station := src, code := code, seq := seq, cls := actingClass s k }] := rfl
@[simp] theorem taken_restart (s : State) (src code seq : Byte) (k : Cls) :
    (taken s src code seq k).req.restart = s.req.restart := rfl
@[simp] theorem taken_ctx (s : State) (src code seq : Byte) (k : Cls) (c : Chan) :
    ((taken s src code seq k).ch c).ctx = (s.ch c).ctx := by cases c <;> rfl
@[simp] theorem taken_meter (s : State) (src code seq : Byte) (k : Cls) (c : Chan) :
    ((taken s src code seq k).ch c).meter = (s.ch c).meter := by cases c <;> rfl
@[simp] theorem taken_gate (s : State) (src code seq : Byte) (k : Cls) (c : Chan) :
    ((taken s src code seq k).ch c).gate = (s.ch c).gate := by cases c <;> rfl
@[simp] theorem taken_monitor (s : State) (src code seq : Byte) (k : Cls) (c : Chan) :
    ((taken s src code seq k).ch c).monitor = (s.ch c).monitor := by cases c <;> rfl
@[simp] theorem taken_silence (s : State) (src code seq : Byte) (k : Cls) (c : Chan) :
    ((taken s src code seq k).ch c).silence = (s.ch c).silence := by cases c <;> rfl
@[simp] theorem taken_heldPrint (s : State) (src code seq : Byte) (k : Cls) (c : Chan) :
    ((taken s src code seq k).ch c).heldPrint = (s.ch c).heldPrint := by cases c <;> rfl

/-! ### What the owners ask of the taken state -/

@[simp] theorem taken_accepts (s : State) (src code seq : Byte) (k : Cls) :
    accepts (taken s src code seq k) = accepts s := rfl
@[simp] theorem taken_freeSlots (s : State) (src code seq : Byte) (k : Cls) :
    freeSlots (taken s src code seq k) = freeSlots s := rfl
@[simp] theorem taken_notLocked (s : State) (src code seq : Byte) (k : Cls) :
    notLocked (taken s src code seq k) = notLocked s := rfl
@[simp] theorem taken_staged (s : State) (src code seq : Byte) (k : Cls) :
    staged (taken s src code seq k) = staged s := rfl
@[simp] theorem taken_isActivating (s : State) (src code seq : Byte) (k : Cls) :
    isActivating (taken s src code seq k) = isActivating s := rfl
@[simp] theorem taken_routeIdOf (s : State) (src code seq : Byte) (k : Cls) :
    routeIdOf (taken s src code seq k) = routeIdOf s := rfl
@[simp] theorem taken_dropOf (s : State) (src code seq : Byte) (k : Cls) (n : Nat) :
    dropOf (taken s src code seq k) n = dropOf s n := rfl
@[simp] theorem taken_compOf (s : State) (src code seq : Byte) (k : Cls) (n : Nat) :
    compOf (taken s src code seq k) n = compOf s n := rfl
@[simp] theorem taken_productOf (s : State) (src code seq : Byte) (k : Cls) (n : Nat) :
    productOf (taken s src code seq k) n = productOf s n := rfl
@[simp] theorem taken_overrunOf (s : State) (src code seq : Byte) (k : Cls) (n : Nat) :
    overrunOf (taken s src code seq k) n = overrunOf s n := rfl
@[simp] theorem taken_programOf (s : State) (src code seq : Byte) (k : Cls) (n : Nat) :
    programOf (taken s src code seq k) n = programOf s n := rfl
@[simp] theorem taken_additionsInFlight (s : State) (src code seq : Byte) (k : Cls) :
    additionsInFlight (taken s src code seq k) = additionsInFlight s := rfl
@[simp] theorem taken_indexOf (s : State) (src code seq : Byte) (k : Cls) (n : Nat) :
    indexOf (taken s src code seq k) n = indexOf s n := rfl
@[simp] theorem taken_barred (s : State) (src code seq : Byte) (k : Cls) (c : Chan) :
    barred (taken s src code seq k) c = barred s c := rfl
@[simp] theorem taken_complete (s : State) (src code seq : Byte) (k : Cls) (c : Chan) :
    complete (taken s src code seq k) c = complete s c := rfl
@[simp] theorem taken_tableChecks (s : State) (src code seq : Byte) (k : Cls) (d : TableData) :
    tableChecks (taken s src code seq k) d = tableChecks s d := rfl
@[simp] theorem taken_metrologyChange (s : State) (src code seq : Byte) (k : Cls) (d : TableData) :
    metrologyChange (taken s src code seq k) d = metrologyChange s d := rfl
@[simp] theorem taken_dropOk (s : State) (src code seq : Byte) (k : Cls) (d : StagedDrop) :
    dropOk (taken s src code seq k) d = dropOk s d := rfl
@[simp] theorem taken_dropServed (s : State) (src code seq : Byte) (k : Cls) (d : Drop) :
    dropServed (taken s src code seq k) d = dropServed s d := rfl
@[simp] theorem taken_openAuthorised (s : State) (src code seq : Byte) (k : Cls) (d : Drop) (n : Nat) :
    openAuthorised (taken s src code seq k) d n = openAuthorised s d n := rfl
@[simp] theorem taken_settingAddressOk (s : State) (src code seq : Byte) (k : Cls) (x : Setting) (v : Int) :
    settingAddressOk (taken s src code seq k) x v = settingAddressOk s x v := rfl
@[simp] theorem taken_routeCloseBody (s : State) (src code seq : Byte) (k : Cls) :
    routeCloseBody (taken s src code seq k) = routeCloseBody s := rfl
@[simp] theorem taken_unplannedAllowed (s : State) (src code seq : Byte) (k : Cls) :
    unplannedAllowed (taken s src code seq k) = unplannedAllowed s := rfl
@[simp] theorem taken_blockState (s : State) (src code seq : Byte) (k : Cls) (n : Nat) :
    blockState (taken s src code seq k) n = blockState s n := rfl
@[simp] theorem taken_dropsShown (s : State) (src code seq : Byte) (k : Cls) :
    dropsShown (taken s src code seq k) = dropsShown s := rfl
@[simp] theorem taken_healthPage (s : State) (src code seq : Byte) (k : Cls) (n : Nat) :
    healthPage (taken s src code seq k) n = healthPage s n := rfl
@[simp] theorem taken_tableAudit (s : State) (src code seq : Byte) (k : Cls) (l : Load) (st : Byte) (a : Change) (b : AuditCounter) :
    tableAudit (taken s src code seq k) l st a b = tableAudit s l st a b := rfl
@[simp] theorem taken_nodeOf (s : State) (src code seq : Byte) (k : Cls) (c : Chan) (r : Role) :
    nodeOf (taken s src code seq k) c r = nodeOf s c r := rfl
@[simp] theorem taken_useCondition (s : State) (src code seq : Byte) (k : Cls) (d : TableData) :
    useCondition (taken s src code seq k) d = useCondition s d := by
  cases d <;> rfl
@[simp] theorem taken_bothIdle (s : State) (src code seq : Byte) (k : Cls) :
    bothIdle (taken s src code seq k) = bothIdle s := rfl
@[simp] theorem taken_conditionGone (s : State) (src code seq : Byte) (k : Cls) (c : Chan) (x : Cause) :
    conditionGone (taken s src code seq k) c x = conditionGone s c x := by cases x <;> cases c <;> rfl

/-- No other station's request of a code is in progress when none at all was before. -/
theorem taken_otherInProgress {s : State} {src code seq x : Byte} {k : Cls} (h : ∀ p ∈ s.req.inProgress, p.code ≠ x) :
    otherInProgress (taken s src code seq k) src x = false := by
  rw [otherInProgress, taken_inProgress, List.any_append]
  simp only [List.any_cons, List.any_nil, bne_self_eq_false, Bool.false_and, Bool.or_false, List.any_eq_false]
  intro p hp
  simp [h p hp]

/-- The request in progress is found under its station. -/
theorem find_taken {s : State} {src code seq : Byte} {k : Cls} (h : ∀ p ∈ s.req.inProgress, p.station ≠ src) :
    (taken s src code seq k).req.inProgress.find? (fun p => p.station = src) =
      some { station := src, code := code, seq := seq, cls := actingClass s k } := by
  rw [taken_inProgress, List.find?_append, List.find?_eq_none.mpr (by simpa using h)]
  simp

/-- A request of a ready station whose class suffices reaches its owner (R9, R195). -/
theorem takeRequest_ready {s : State} {src seq code : Byte} {k need : Cls} (h : Ready s src k)
    (hc : requiredClass code = some need) (hk : clsRank need ≤ clsRank (actingClass s k)) (owner : Owner) :
    takeRequest src seq code owner (noteValues s) = owner src (actingClass s k) (taken s src code seq k) := by
  have hp : (noteValues s).power.state = .on := h.on
  have he : stationClass (noteValues s) src = some k := h.entry
  have hf : ((noteValues s).req.inProgress.any fun p => decide (p.station = src)) = false := by
    have : (noteValues s).req = s.req := rfl
    simpa [this] using h.free
  have ha : actingClass (noteValues s) k = actingClass s k := rfl
  unfold takeRequest frameToZero
  rw [hp]
  simp only [h.address, if_true, serve, he, hf, Bool.false_eq_true, if_false, ha]
  show judgeRequest src code (actingClass s k) owner (taken s src code seq k) = _
  unfold judgeRequest
  rw [if_neg (by simp [h.on]), if_neg (by simp [h.running]), hc]
  exact if_neg (Nat.not_lt.mpr hk)

/-- A request whose owner replies at once: it completes, its reply is placed, and apart from the line the state is the
one the owner made. `u` is that state before the reply. -/
theorem request_answered {s u : State} {src seq code : Byte} {k need : Cls} {owner : Owner} {r : Option RefCode}
    {x : Result} (h : Ready s src k) (hr : AnswerRoom s) (hc : requiredClass code = some need)
    (hk : clsRank need ≤ clsRank (actingClass s k))
    (ho : owner src (actingClass s k) (taken s src code seq k) = reply src r x u) (hl : u.line = s.line)
    (hq : u.req.inProgress = (taken s src code seq k).req.inProgress) (hp : u.power.state = .on) :
    ∃ t, event (takeRequest src seq code owner) s = .next t ∧ Answered t src seq code r x ∧ t.offLine = u.offLine := by
  have ha : Answered (reply src r x u) src seq code r x := by
    have hroom : AnswerRoom u := by simpa [AnswerRoom, hl] using hr
    have hfind : u.req.inProgress.find? (fun p => p.station = src) =
        some { station := src, code := code, seq := seq, cls := actingClass s k } := by
      rw [hq]
      exact find_taken h.free
    exact reply_answered (p := { station := src, code := code, seq := seq, cls := actingClass s k }) hroom hfind r x
  have hs : (reply src r x u).power.state ≠ .shutdown := by
    have : (reply src r x u).power.state = u.power.state :=
      offLine_field (by simp) (fun v => v.power.state) fun _ => rfl
    simp [this, hp]
  refine ⟨finish (reply src r x u), ?_, answered_finish hs ha, ?_⟩
  · rw [event, takeRequest_ready h hc hk, ho]
  · rw [finish_offLine hs, reply_offLine]

/-- A request whose owner leaves it waiting: it completes, the request stays in progress, and apart from the line the
state is the one the owner made. -/
theorem request_waits {s u : State} {src seq code : Byte} {k need : Cls} {owner : Owner} (h : Ready s src k)
    (hc : requiredClass code = some need) (hk : clsRank need ≤ clsRank (actingClass s k))
    (ho : owner src (actingClass s k) (taken s src code seq k) = u)
    (hg : GoesOn { station := src, code := code, seq := seq, cls := actingClass s k } (taken s src code seq k) u)
    (hp : u.power.state = .on) :
    ∃ t, event (takeRequest src seq code owner) s = .next t ∧ Waits t src code seq (actingClass s k) ∧
      t.offLine = u.offLine := by
  have hs : u.power.state ≠ .shutdown := by simp [hp]
  have hw := (hg.trans (goesOn_finish _ hs)) h.unanswered
  refine ⟨finish u, ?_, hw.2 (by simp), finish_offLine hs⟩
  rw [event, takeRequest_ready h hc hk, ho]

/-! ### Admitted stations -/

/-- An admitted station's request whose owner replies at once. -/
theorem admitted_answered {s u o : State} {src seq code : Byte} {k need : Cls} {owner : Owner} {r : Option RefCode}
    {x : Result} (h : Admitted s src k need) (hc : requiredClass code = some need)
    (ho : owner src (actingClass s k) (taken s src code seq k) = reply src r x u) (hl : u.line = s.line)
    (hq : u.req.inProgress = (taken s src code seq k).req.inProgress) (hp : u.power.state = .on) (hu : u.offLine = o) :
    ∃ t, event (takeRequest src seq code owner) s = .next t ∧ Answered t src seq code r x ∧ t.offLine = o :=
  hu ▸ request_answered h.toReady h.room hc h.allowed ho hl hq hp

/-- An admitted station's request whose owner changes neither the line nor the requests and leaves it waiting. -/
theorem admitted_waits {s u o : State} {src seq code : Byte} {k need : Cls} {owner : Owner} (h : Admitted s src k need)
    (hc : requiredClass code = some need) (ho : owner src (actingClass s k) (taken s src code seq k) = u)
    (hl : u.line = s.line) (hq : u.req = (taken s src code seq k).req) (hp : u.power.state = .on) (hu : u.offLine = o) :
    ∃ t, event (takeRequest src seq code owner) s = .next t ∧ Waits t src code seq (actingClass s k) ∧ t.offLine = o :=
  hu ▸ request_waits h.toReady hc h.allowed ho (GoesOn.of_eq (by rw [hl]; rfl) hq) hp

/-- A station admitted to a METROLOGY request acts in that class. -/
theorem admitted_metrology {s : State} {st : Byte} {k : Cls} (h : Admitted s st k .metrology) :
    actingClass s k = .metrology := by
  have := h.allowed
  cases hk : actingClass s k <;> simp [hk, clsRank] at this ⊢

/-! ### Every request command takes its frame -/

/-- A request command is the taking of its REQUEST frame by its owner. -/
theorem exec_request {i : Instr} {src seq code : Byte} (h : requestFrame i = some (src, seq, code)) :
    ∃ owner : Owner, exec i = event (takeRequest src seq code owner) := by
  cases i <;> simp only [requestFrame, Option.some.injEq, Prod.mk.injEq, reduceCtorEq] at h <;>
    (obtain ⟨rfl, rfl, rfl⟩ := h; exact ⟨_, rfl⟩)

end Sys2Proof.Machine
end

