-- ==== Sys2Proof/Laws/Channels.lean ====
section
/-! SUPPORT. What the shared operations over a channel make of the state apart from the line: one lemma per operation. -/
namespace Sys2Proof.Machine

/-! ### Replacing a channel -/

@[simp] theorem setCh_setCh (s : State) (c : Chan) (x y : Channel) : (s.setCh c x).setCh c y = s.setCh c y := by
  cases c <;> rfl
@[simp] theorem ch_setCh_same (s : State) (c : Chan) (x : Channel) : (s.setCh c x).ch c = x := by cases c <;> rfl
@[simp] theorem setCh_ch (s : State) (c : Chan) : s.setCh c (s.ch c) = s := by cases c <;> rfl
@[simp] theorem setCh_store (s : State) (c : Chan) (x : Channel) : (s.setCh c x).store = s.store := by cases c <;> rfl
@[simp] theorem setCh_power (s : State) (c : Chan) (x : Channel) : (s.setCh c x).power = s.power := by cases c <;> rfl
@[simp] theorem setCh_line (s : State) (c : Chan) (x : Channel) : (s.setCh c x).line = s.line := by cases c <;> rfl
@[simp] theorem setCh_journal (s : State) (c : Chan) (x : Channel) : (s.setCh c x).journal = s.journal := by
  cases c <;> rfl
@[simp] theorem setCh_req (s : State) (c : Chan) (x : Channel) : (s.setCh c x).req = s.req := by cases c <;> rfl

theorem setCh_offLine (s : State) (c : Chan) (x : Channel) : (s.setCh c x).offLine = s.offLine.setCh c x.offLine := by
  cases c <;> rfl

theorem modCh_eq (c : Chan) (f : Channel → Channel) (s : State) : modCh c f s = s.setCh c (f (s.ch c)) := rfl
theorem modCtx_eq (c : Chan) (f : Ctx → Ctx) (s : State) :
    modCtx c f s = s.setCh c { s.ch c with ctx := f (s.ch c).ctx } := rfl
theorem modMeter_eq (c : Chan) (f : Meter → Meter) (s : State) :
    modMeter c f s = s.setCh c { s.ch c with meter := f (s.ch c).meter } := rfl
theorem modGate_eq (c : Chan) (f : Gate → Gate) (s : State) :
    modGate c f s = s.setCh c { s.ch c with gate := f (s.ch c).gate } := rfl
theorem modMonitor_eq (c : Chan) (f : Monitor → Monitor) (s : State) :
    modMonitor c f s = s.setCh c { s.ch c with monitor := f (s.ch c).monitor } := rfl

theorem nodeOf_setCh (s : State) (c d : Chan) (x : Channel) (r : Role) : nodeOf (s.setCh c x) d r = nodeOf s d r := by
  cases c <;> rfl

/-! ### What a channel's figures rest on -/

theorem liveFigure_setCh {s : State} {c : Chan} {x : Channel} (hm : x.meter = (s.ch c).meter)
    (ho : x.ctx.mode = (s.ch c).ctx.mode) (hp : x.ctx.product = (s.ch c).ctx.product) :
    liveFigure (s.setCh c x) c = liveFigure s c := by
  cases c <;> simp only [ch_a, ch_b] at hm ho hp <;>
    simp [liveFigure, liveNet, liveGross, hm, ho, hp, productVcf, productOf, curveOf]

/-! ### Orders (R118, R121) -/

theorem issueOrder_offLine (c : Chan) (p : Pos) (s : State) :
    (issueOrder c p s).offLine = (s.setCh c (ordered s c p (s.ch c))).offLine := by
  unfold issueOrder ordered
  cases h : nodeOf s c .valve
  · simp
  · simp only [placeOrder_offLine]
    rfl

theorem ordered_setCh (s : State) (c : Chan) (p : Pos) (x y : Channel) :
    ordered (s.setCh c x) c p y = ordered s c p y := by rw [ordered, ordered, nodeOf_setCh]

theorem closedBy_setCh (s : State) (c : Chan) (x y : Channel) : closedBy (s.setCh c x) c y = closedBy s c y := by
  rw [closedBy, closedBy, ordered_setCh]

theorem gateClose_offLine (c : Chan) (s : State) :
    (gateClose c s).offLine = (s.setCh c (closedBy s c (s.ch c))).offLine := by
  unfold gateClose closedBy
  split
  · simp
  · rw [issueOrder_offLine]

theorem gateClose_setCh (c : Chan) (s : State) (x : Channel) :
    (gateClose c (s.setCh c x)).offLine = (s.setCh c (closedBy s c x)).offLine := by
  rw [gateClose_offLine, setCh_setCh, closedBy_setCh, ch_setCh_same]

theorem issueOrder_setCh (c : Chan) (p : Pos) (s : State) (x : Channel) :
    (issueOrder c p (s.setCh c x)).offLine = (s.setCh c (ordered s c p x)).offLine := by
  rw [issueOrder_offLine, setCh_setCh, ordered_setCh, ch_setCh_same]

/-- An order goes out again under its number (R119, R136). -/
theorem resendOrder_offLine (c : Chan) (o : Order) (n : Nat) (s : State) :
    (resendOrder c o n s).offLine =
      (modGate c (fun g => { g with outstanding := some { o with phase := .queued, attempts := n }
                                    timer := false }) s).offLine := by
  unfold resendOrder
  rw [placeOrder_offLine]

/-! ### Episodes, settling, holding (R93, R94, R97, R140) -/

theorem endEpisode_eq (c : Chan) (cause : EndCause) (s : State) :
    endEpisode c cause s = s.setCh c { s.ch c with ctx := episodeEnded s c cause (s.ch c).ctx } := rfl

theorem settle_offLine (c : Chan) (cause : EndCause) (s : State) :
    (settle c cause s).offLine = (s.setCh c (settledBy s c cause)).offLine := by
  unfold settle
  rw [produceNotice_offLine, endEpisode_eq, modCtx_eq, setCh_setCh, gateClose_setCh]
  simp only [ch_setCh_same, setCh_store]
  rfl

theorem enterHeld_offLine (c : Chan) (group : List Cause) (p : Cause) (n : Byte) (s : State) :
    (enterHeld c group p n s).offLine =
      (s.setCh c (closedBy s c { s.ch c with
        ctx := heldCtx s c group p n
        meter := { (s.ch c).meter with creep := 0, creepMark := false } })).offLine := by
  unfold enterHeld heldCtx
  dsimp only
  rw [produceNotice_offLine]
  by_cases h : (s.ch c).ctx.state = .flowing
  · simp only [h, decide_true, if_true, resetCreep, modCtx_eq, modMeter_eq, endEpisode_eq, setCh_setCh, ch_setCh_same,
      gateClose_setCh, episodeEnded]
    rw [liveFigure_setCh (by rfl) (by rfl) (by rfl)]
    rfl
  · simp only [h, decide_false, Bool.false_eq_true, if_false, resetCreep, modCtx_eq, modMeter_eq, setCh_setCh,
      ch_setCh_same, gateClose_setCh]
    rfl

/-- What handing causes does (R97, R139, R140). -/
theorem handCauses_offLine (c : Chan) (group : List Cause) (n : Byte) (s : State) :
    (handCauses c group n s).offLine = (s.setCh c (handed s c group n)).offLine := by
  unfold handCauses
  cases hp : primaryOf group
  · simp [handed, hp]
  · dsimp only
    cases hs : (s.ch c).ctx.state <;> simp [handed, hp, hs, enterHeld_offLine, modCtx_eq]

/-! ### Closing, idling, arming (R43, R44, R98) -/

theorem buildAndEnter_closing (c : Chan) (o : CloseOrigin) (r : Option Byte) (s : State) :
    buildAndEnter c o .closing (modCtx c (fun x => { x with requester := r }) s) =
      s.setCh c { s.ch c with ctx := closingCtx s c o r } := by
  simp only [buildAndEnter, modCtx_eq, setCh_setCh, ch_setCh_same, closingCtx]

theorem beginClose_offLine (c : Chan) (o : CloseOrigin) (r : Option Byte) (s : State) :
    (beginClose c o r s).offLine =
      (withAppend (s.setCh c { s.ch c with ctx := closingCtx s c o r }) (.close c)).offLine := by
  unfold beginClose
  dsimp only
  rw [buildAndEnter_closing, handAppend, offLine_modJournal, produceNotice_offLine]
  rfl

/-- A context has left IDLE: the channel is armed, and the causes of the opening are handed (R43, R91). -/
theorem leaveIdle_offLine (c : Chan) (s : State) :
    (leaveIdle c s).offLine =
      ((s.setCh c (armedWith s c (s.ch c).ctx)).setCh c
        (handed (s.setCh c (armedWith s c (s.ch c).ctx)) c (openingCauses s c) 0)).offLine := by
  have hm : leaveIdle c s = handCauses c (openingCauses (s.setCh c (armedWith s c (s.ch c).ctx)) c) 0
      (produceNotice c (s.setCh c (armedWith s c (s.ch c).ctx))) := by
    cases c <;> rfl
  have ho : openingCauses (s.setCh c (armedWith s c (s.ch c).ctx)) c = openingCauses s c := by cases c <;> rfl
  rw [hm, handCauses_offLine, ho]
  have hn : ∀ u : State, (produceNotice c u).offLine = u.offLine := fun u => produceNotice_offLine c u
  generalize s.setCh c (armedWith s c (s.ch c).ctx) = u
  have key : ∀ v : State, (v.setCh c (handed v c (openingCauses s c) 0)).offLine =
      (v.offLine.setCh c (handed v.offLine c (openingCauses s c) 0)).offLine := by
    intro v
    have h1 : (handed v c (openingCauses s c) 0).offLine = (handed v.offLine c (openingCauses s c) 0).offLine := by
      have hf : liveFigure v.offLine c = liveFigure v c := by cases c <;> rfl
      have hh : ∀ p, holdEntry v.offLine c p 0 = holdEntry v c p 0 := by intro p; cases c <;> rfl
      have hn : nodeOf v.offLine c .valve = nodeOf v c .valve := rfl
      simp only [handed, ch_offLine, Channel.offLine_ctx, heldCtx, episodeEnded, hf, hh, closedBy, ordered,
        Channel.offLine_gate, hn]
      split <;> (try split) <;> (try split) <;> rfl
    rw [setCh_offLine, h1, setCh_offLine, offLine_offLine]
  rw [key (produceNotice c u), hn u, ← key u]

/-- A context returns to IDLE. -/
theorem toIdle_offLine (c : Chan) (s : State) :
    (toIdle c s).offLine =
      ({ s with ctl := { s.ctl with faultOrder := s.ctl.faultOrder.filter fun d => d != c } }.setCh c
        (idled (s.ch c))).offLine := by
  unfold toIdle
  dsimp only
  refine (offLine_modMeter_marks _ _ _ ?_).trans ?_
  · exact fun _ => rfl
  · rw [produceNotice_offLine]
    cases c <;> rfl

end Sys2Proof.Machine
end

