-- ==== Sys2Proof/Laws/Counters.lean ====
section
/-! SUPPORT. What the audit counters and the lockout take from a committed record (R152, R189, R190), and what taking a
block changes (R172). -/
namespace Sys2Proof.Machine

theorem takeCounters_audit {r : Record} {a : AuditBody} (h : r.body = .audit a) (s : State) :
    takeCounters r s = { s with met := { s.met with cal := r.cal, cfg := r.cfg } } := by
  unfold takeCounters
  rw [h]
  rfl

theorem takeCounters_other {r : Record} (h : ∀ a, r.body ≠ .audit a) (s : State) : takeCounters r s = s := by
  unfold takeCounters
  split
  · rename_i a k
    exact absurd k (h a)
  all_goals rfl

/-- Whatever the record, only the metrology unit's state is written. -/
theorem takeCounters_frame (r : Record) (s : State) : ∃ m, takeCounters r s = { s with met := m } := by
  unfold takeCounters
  split
  · exact ⟨_, rfl⟩
  all_goals exact ⟨s.met, rfl⟩

/-! ### The end of a lockout -/

theorem endLockout_clear {r : Record} {a : AuditBody} (h : r.body = .audit a) (k : a.change = .lockoutClear) (s : State) :
    endLockout r s = { s with ctl := { s.ctl with lockout := .none } } := by
  unfold endLockout
  rw [h]
  simp only [k]
  rfl

theorem endLockout_other {r : Record} (h : ∀ a, r.body = .audit a → a.change ≠ .lockoutClear) (s : State) :
    endLockout r s = s := by
  unfold endLockout
  split
  · rename_i a k
    exact if_neg (h a k)
  all_goals rfl

/-- Whatever the record, only the lockout of the ticket controller is written. -/
theorem endLockout_frame (r : Record) (s : State) :
    ∃ l, endLockout r s = { s with ctl := { s.ctl with lockout := l } } := by
  unfold endLockout
  split
  · split
    · exact ⟨_, rfl⟩
    · exact ⟨s.ctl.lockout, rfl⟩
  all_goals exact ⟨s.ctl.lockout, rfl⟩

/-! ### The block a record goes into -/

theorem takeBlock_eq (block slot : Nat) (s : State) :
    takeBlock block slot s = { s with journal := { s.journal with
      blocks := s.journal.blocks.modify block fun i => { i with state := .current, writePoint := slot } } } := rfl

/-- Taking the block leaves the newest numbers, so whether a number is left, and the header a record takes. -/
@[simp] theorem numberLeft_takeBlock (block slot : Nat) (s : State) (b : Body) :
    numberLeft (takeBlock block slot s) b = numberLeft s b := rfl

@[simp] theorem makeRecord_takeBlock (block slot : Nat) (s : State) (b : Body) :
    makeRecord (takeBlock block slot s) b = makeRecord s b := rfl

end Sys2Proof.Machine
end

