-- ==== Sys2Proof/Laws/Events.lean ====
section
/-! SUPPORT. What a command as one event leaves: the effect's own state apart from the line, and the F-bound side of the
line as the effect left it. -/
namespace Sys2Proof.Machine

/-! ### The F-bound side is not touched by notices, replies and prints -/

/-- The F-bound side of the line. -/
def fSide (s : State) : List FFrame × Option FFrame × Byte := (s.line.fq, s.line.fline, s.line.fseq)

@[simp] theorem fSide_modCh (c : Chan) (f : Channel → Channel) (s : State) : fSide (modCh c f s) = fSide s := by
  simp [fSide]
@[simp] theorem fSide_modMeter (c : Chan) (f : Meter → Meter) (s : State) : fSide (modMeter c f s) = fSide s := by
  simp [fSide]

theorem putPrint_fSide (p : Print) (s : State) : fSide (putPrint p s) = fSide s := by
  unfold putPrint
  split
  · rfl
  split
  · exact fSide_modCh _ _ _
  · rfl

theorem handPlace_fSide (r : Bool) (s : State) : fSide (handPlace r s) = fSide s := by
  unfold handPlace
  split
  · rfl
  dsimp only
  split
  · rfl
  · unfold printSlotEmptied
    split
    · rw [putPrint_fSide, fSide_modCh]
      rfl
    · rfl
  all_goals rfl

theorem startC_fSide (s : State) : fSide (startC s) = fSide s := by
  unfold startC
  split
  · split
    · rw [handPlace_fSide]
      rfl
    · rfl
  · rfl

theorem putNotice_fSide (c : Chan) (n : Notice) (s : State) : fSide (putNotice c n s) = fSide s := by
  unfold putNotice
  dsimp only
  split
  · rfl
  split
  · rfl
  split
  · rw [startC_fSide]
    rfl
  · rfl

@[simp] theorem produceNotice_fSide (c : Chan) (s : State) : fSide (produceNotice c s) = fSide s := by
  unfold produceNotice
  dsimp only
  split
  · rw [fSide_modMeter, fSide_modCh]
  · rw [putNotice_fSide, fSide_modMeter, fSide_modMeter, fSide_modCh]

theorem valueNotice_fSide (c : Chan) (s : State) : fSide (valueNotice c s) = fSide s := by
  unfold valueNotice
  split
  · rfl
  split
  · exact fSide_modMeter _ _ _
  split
  · exact fSide_modMeter _ _ _
  · exact produceNotice_fSide _ _

theorem settleNotice_fSide (c : Chan) (s : State) : fSide (settleNotice c s) = fSide s := by
  unfold settleNotice
  dsimp only
  rw [fSide_modCh]
  split
  · split
    · rfl
    · exact valueNotice_fSide _ _
  · rfl

theorem sendReply_fSide (r : Reply) (s : State) : fSide (sendReply r s) = fSide s := by
  unfold sendReply
  split
  · rw [startC_fSide]
    rfl
  · rfl

@[simp] theorem reply_fSide (st : Byte) (r : Option RefCode) (x : Result) (s : State) :
    fSide (reply st r x s) = fSide s := by
  unfold reply
  split
  · exact sendReply_fSide _ _
  · rfl

theorem finish_fSide {s : State} (h : s.power.state ≠ .shutdown) : fSide (finish s) = fSide s := by
  have h' : fSide (settleNotice .b (settleNotice .a s)) = fSide s := by simp [settleNotice_fSide]
  have hp : (settleNotice .b (settleNotice .a s)).power.state = s.power.state :=
    offLine_field (by simp) (fun u => u.power.state) fun _ => rfl
  unfold finish judgePowerOff
  rw [if_neg (by simp [hp, h])]
  exact h'

/-! ### An event -/

/-- An event whose effect does not end in SHUTDOWN completes, and leaves the effect's state apart from the line. -/
theorem event_told {f : State → State} {s : State} (h : (f (noteValues s)).power.state ≠ .shutdown) :
    ∃ t, event f s = .next t ∧ t.offLine = (f (noteValues s)).offLine ∧ fSide t = fSide (f (noteValues s)) :=
  ⟨_, rfl, finish_offLine h, finish_fSide h⟩

/-- The same, where the effect's state is told from the line. -/
theorem event_is {f : State → State} {s u : State} (h : (f (noteValues s)).offLine = u.offLine)
    (hp : u.power.state ≠ .shutdown) : ∃ t, event f s = .next t ∧ t.offLine = u.offLine := by
  have hs : (f (noteValues s)).power.state = u.power.state := offLine_field h (fun v => v.power.state) fun _ => rfl
  obtain ⟨t, h1, h2, -⟩ := event_told (f := f) (s := s) (by rw [hs]; exact hp)
  exact ⟨t, h1, h2.trans h⟩

/-! ### What is told of a channel rests on that channel and the tables -/

/-- A state that has only a channel and the store of another. -/
def seen (s : State) (c : Chan) : State := { State.reset with store := s.store }.setCh c (s.ch c).offLine

theorem seen_eq {s u : State} {c : Chan} (hc : (u.ch c).offLine = (s.ch c).offLine) (hs : u.store = s.store) :
    seen u c = seen s c := by rw [seen, seen, hc, hs]

@[simp] theorem ch_seen (s : State) (c : Chan) : (seen s c).ch c = (s.ch c).offLine := by cases c <;> rfl
@[simp] theorem store_seen (s : State) (c : Chan) : (seen s c).store = s.store := by cases c <;> rfl
@[simp] theorem liveFigure_seen (s : State) (c : Chan) : liveFigure (seen s c) c = liveFigure s c := by cases c <;> rfl
@[simp] theorem liveNet_seen (s : State) (c : Chan) : liveNet (seen s c) c = liveNet s c := by cases c <;> rfl
@[simp] theorem startSlow_seen (s : State) (c : Chan) : startSlow (seen s c) c = startSlow s c := by cases c <;> rfl
@[simp] theorem watchIsRate_seen (s : State) (c : Chan) (w : StopProgram → Watch) :
    watchIsRate (seen s c) c w = watchIsRate s c w := by cases c <;> rfl
@[simp] theorem nodeOf_seen (s : State) (c : Chan) (r : Role) : nodeOf (seen s c) c r = nodeOf s c r := by cases c <;> rfl
@[simp] theorem holdEntry_seen (s : State) (c : Chan) (p : Cause) (n : Byte) :
    holdEntry (seen s c) c p n = holdEntry s c p n := by cases c <;> rfl

theorem handed_of {s u : State} {c : Chan} (hc : (u.ch c).offLine = (s.ch c).offLine) (hs : u.store = s.store)
    (g : List Cause) (n : Byte) : (handed u c g n).offLine = (handed s c g n).offLine := by
  have key : ∀ v : State, (handed v c g n).offLine = (handed (seen v c) c g n).offLine := by
    intro v
    simp only [handed, ch_seen, Channel.offLine_ctx, heldCtx, episodeEnded, liveFigure_seen, holdEntry_seen, closedBy,
      ordered, Channel.offLine_gate, nodeOf_seen]
    split <;> (try split) <;> (try split) <;> rfl
  rw [key u, seen_eq hc hs, ← key s]

theorem settledBy_of {s u : State} {c : Chan} (hc : (u.ch c).offLine = (s.ch c).offLine) (hs : u.store = s.store)
    (e : EndCause) : (settledBy u c e).offLine = (settledBy s c e).offLine := by
  have key : ∀ v : State, (settledBy v c e).offLine = (settledBy (seen v c) c e).offLine := by
    intro v
    simp only [settledBy, ch_seen, store_seen, Channel.offLine_ctx, episodeEnded, liveFigure_seen, closedBy, ordered,
      Channel.offLine_gate, nodeOf_seen]
    (try split) <;> (try split) <;> rfl
  rw [key u, seen_eq hc hs, ← key s]

theorem started_of {s u : State} {c : Chan} (hc : (u.ch c).offLine = (s.ch c).offLine) (hs : u.store = s.store)
    (p : Pos) : (started u c p).offLine = (started s c p).offLine := by
  have key : ∀ v : State, (started v c p).offLine = (started (seen v c) c p).offLine := by
    intro v
    simp only [started, ch_seen, Channel.offLine_ctx, liveFigure_seen, ordered, Channel.offLine_gate,
      Channel.offLine_monitor, nodeOf_seen, watchIsRate_seen, startPosition, liveNet_seen, startSlow_seen]
    split <;> rfl
  rw [key u, seen_eq hc hs, ← key s]

/-- States that agree apart from the line agree so in a channel. -/
theorem ch_offLine_eq {s u : State} (h : u.offLine = s.offLine) (c : Chan) : (u.ch c).offLine = (s.ch c).offLine := by
  rw [← ch_offLine, h, ch_offLine]

theorem store_eq {s u : State} (h : u.offLine = s.offLine) : u.store = s.store :=
  offLine_field h (fun v => v.store) fun _ => rfl

theorem handed_congr {s u : State} (h : u.offLine = s.offLine) (c : Chan) (g : List Cause) (n : Byte) :
    (handed u c g n).offLine = (handed s c g n).offLine := handed_of (ch_offLine_eq h c) (store_eq h) g n

/-- Replacing a channel by what is told of it, on states that agree apart from the line. -/
theorem setCh_congr {s u : State} (h : u.offLine = s.offLine) (c : Chan) {x y : Channel} (hx : x.offLine = y.offLine) :
    (u.setCh c x).offLine = (s.setCh c y).offLine := by rw [setCh_offLine, h, hx, setCh_offLine]

/-- Causes handed to both contexts, A first. -/
theorem handBoth_offLine (g : List Cause) (n : Byte) (s : State) :
    (handCauses .b g n (handCauses .a g n s)).offLine =
      { s.offLine with chA := (handed s .a g n).offLine, chB := (handed s .b g n).offLine } := by
  rw [handCauses_offLine]
  have hA := handCauses_offLine .a g n s
  have hB : (handed (handCauses .a g n s) .b g n).offLine = (handed s .b g n).offLine :=
    handed_of (ch_offLine_eq (c := .b) hA) (store_eq hA) g n
  rw [setCh_congr hA .b hB]
  rfl

end Sys2Proof.Machine
end

