-- ==== Sys2Proof/WellFormed.lean ====
section
/-! DEFINITION. Well-formed commands: operands that the part's surroundings can present. A frame has a destination and a
source that R2 admits and a payload the length byte can give; a slot or a block named by the array lies in it. Arguments
that the part judges itself (a request's numbers, a form check) are not bounded here. -/
namespace Sys2Proof

open Machine

/-- Destination and source of a received frame (R2, tests 3 and 4). -/
def addressesOk (dst src : Byte) : Bool := dst.toNat ≤ 127 && between 1 126 src.toNat

/-- Slots named by the array: a block from 0 to 63 and a slot from 0 to 15 (R166). -/
def slotsOk (l : List (Nat × Nat)) : Bool := l.all fun x => x.1 < 64 && x.2 < 16

/-- A read-back names slots of one block (R174). -/
def reportOk (r : RetireReport) : Bool := r.lost.all fun n => n < 16

/-- A request's source is an address on the line (R1). -/
def sourceOk (src : Byte) : Bool := between 1 126 src.toNat

/-- A command that the part's surroundings can present. -/
def Instr.wellFormed : Instr → Bool
  | .powerOn _ | .startingResume _ | .startingPowerLoss _ | .supplyLow _ | .supplyNormal _ | .brown _ => true
  | .storeRead failing => distinct failing
  | .reconstruction badSlots badHeaders => slotsOk badSlots && badHeaders.all fun b => b < 64
  | .ignitionOff | .ignitionOn | .standbyDelayExpiry | .metrologySwitchOpen | .metrologySwitchClose
  | .clockSecond => true
  | .malformedFrame _ bytes => (parseFrame bytes).isNone
  | .tally dst src _ _ _ _ | .probe dst src _ _ _ | .contact dst src _ _ | .reelContact dst src _ _
  | .valveAnswer dst src _ _ _ | .cabValveClosed dst src _ _ | .cabValveOpen dst src _ _ _ => addressesOk dst src
  | .throughFrame _ f => frameOk f
  | .nonRequestToZero src kind _ payload => sourceOk src && kind != kindRequest && payload.length ≤ 255
  | .unknownStationRequest src _ payload => sourceOk src && payload.length ≤ 255
  | .unknownRequestCode src _ code => sourceOk src && (requiredClass code).isNone
  | .openTicket src _ _ _ _ | .closeTicket src _ _ | .clearHold src _ _ | .retryClose src _ _ | .reprint src _ _
  | .readPending src _ _ | .openRoute src _ | .closeRoute src _ | .nextDrop src _ | .readDrop src _ _
  | .skip src _ _ | .restore src _ _ | .addDrop src _ _ | .cancelDrop src _ _ | .readTotals src _
  | .beginLoad src _ _ _ | .loadPiece src _ _ _ _ | .activate src _ | .abandon src _ | .writeSetting src _ _ _
  | .readRecord src _ _ | .releaseThrough src _ _ | .readHealth src _ _ | .loadCompartment src _ _ _ _
  | .writeMetrologySetting src _ _ _ | .openProving src _ _ _ | .provingResult src _ _ _ | .applyFactor src _
  | .clearLockout src _ | .status src _ | .setClock src _ _ | .restart src _ => sourceOk src
  | .silenceTimerExpiry node => sourceOk node
  | .fTransmitEnd | .cTransmitEnd | .probeStalenessExpiry _ | .noticeTimerExpiry _ | .settleQuietExpiry _
  | .settleLimitExpiry _ | .answerTimerExpiry _ | .arbiterTake => true
  | .recordProgramEnd _ _ report | .drainedMarkEnd _ report => reportOk report
  | .eraseStart | .eraseEnd _ _ | .storeWriteEnd _ _ | .recordReadEnd _ => true

end Sys2Proof
end

