-- ==== Sys2Proof/Laws/PerInstr.lean ====
section
/-! SUPPORT. What well-formedness says of each command. A well-formed command that is a request comes from an address a
station may have (R1) and its code is in the request list (R196), so that its class is judged and not its code. -/
namespace Sys2Proof.Laws.WellFormed
open Sys2Proof.Machine

/-- A well-formed request's source is an address on the line, and its code has a class. -/
def Statement (i : Instr) : Prop :=
  i.wellFormed = true → ∀ st q c, requestFrame i = some (st, q, c) → addressOk st = true ∧ (requiredClass c).isSome

/-- A command that is no request claims nothing. -/
theorem of_no_request {i : Instr} (h : requestFrame i = none) : Statement i := fun _ _ _ _ e => by simp [h] at e

/-- A request whose well-formedness is that of its source. -/
theorem of_request {i : Instr} {st q c : Byte} (h : requestFrame i = some (st, q, c))
    (w : i.wellFormed = sourceOk st) (k : (requiredClass c).isSome) : Statement i := by
  intro v a b d e
  rw [h] at e
  simp only [Option.some.injEq, Prod.mk.injEq] at e
  obtain ⟨rfl, rfl, rfl⟩ := e
  rw [w] at v
  exact ⟨v, k⟩

theorem powerOn (mv : Nat) : Statement (.powerOn mv) := of_no_request rfl
theorem storeRead (failing : List Region) : Statement (.storeRead failing) := of_no_request rfl
theorem reconstruction (badSlots : List (Nat × Nat)) (badHeaders : List Nat) :
    Statement (.reconstruction badSlots badHeaders) := of_no_request rfl
theorem startingResume (mv : Nat) : Statement (.startingResume mv) := of_no_request rfl
theorem startingPowerLoss (mv : Nat) : Statement (.startingPowerLoss mv) := of_no_request rfl
theorem supplyLow (mv : Nat) : Statement (.supplyLow mv) := of_no_request rfl
theorem supplyNormal (mv : Nat) : Statement (.supplyNormal mv) := of_no_request rfl
theorem brown (mv : Nat) : Statement (.brown mv) := of_no_request rfl
theorem ignitionOff : Statement .ignitionOff := of_no_request rfl
theorem ignitionOn : Statement .ignitionOn := of_no_request rfl
theorem standbyDelayExpiry : Statement .standbyDelayExpiry := of_no_request rfl
theorem metrologySwitchOpen : Statement .metrologySwitchOpen := of_no_request rfl
theorem metrologySwitchClose : Statement .metrologySwitchClose := of_no_request rfl
theorem clockSecond : Statement .clockSecond := of_no_request rfl
theorem malformedFrame (port : Port) (bytes : List Byte) : Statement (.malformedFrame port bytes) := of_no_request rfl
theorem tally (dst src seq : Byte) (fwd rev elapsed : Word16) : Statement (.tally dst src seq fwd rev elapsed) :=
  of_no_request rfl
theorem probe (dst src seq : Byte) (temp : Word16) (status : Byte) : Statement (.probe dst src seq temp status) :=
  of_no_request rfl
theorem contact (dst src seq : Byte) (state : Byte) : Statement (.contact dst src seq state) := of_no_request rfl
theorem reelContact (dst src seq : Byte) (state : Byte) : Statement (.reelContact dst src seq state) :=
  of_no_request rfl
theorem valveAnswer (dst src seq : Byte) (position number : Byte) :
    Statement (.valveAnswer dst src seq position number) := of_no_request rfl
theorem cabValveClosed (dst src seq : Byte) (number : Byte) : Statement (.cabValveClosed dst src seq number) :=
  of_no_request rfl
theorem cabValveOpen (dst src seq : Byte) (full : Bool) (number : Byte) :
    Statement (.cabValveOpen dst src seq full number) := of_no_request rfl
theorem throughFrame (port : Port) (frame : Frame) : Statement (.throughFrame port frame) := of_no_request rfl
theorem nonRequestToZero (src kind seq : Byte) (payload : List Byte) :
    Statement (.nonRequestToZero src kind seq payload) := of_no_request rfl
theorem unknownStationRequest (src seq : Byte) (payload : List Byte) :
    Statement (.unknownStationRequest src seq payload) := of_no_request rfl
theorem unknownRequestCode (src seq code : Byte) : Statement (.unknownRequestCode src seq code) := of_no_request rfl
theorem openTicket (src seq : Byte) (drop : Nat) (chan : Option Chan) (comp : Nat) :
    Statement (.openTicket src seq drop chan comp) := of_request rfl rfl rfl
theorem closeTicket (src seq : Byte) (chan : Option Chan) : Statement (.closeTicket src seq chan) :=
  of_request rfl rfl rfl
theorem clearHold (src seq : Byte) (chan : Option Chan) : Statement (.clearHold src seq chan) :=
  of_request rfl rfl rfl
theorem retryClose (src seq : Byte) (chan : Option Chan) : Statement (.retryClose src seq chan) :=
  of_request rfl rfl rfl
theorem reprint (src seq : Byte) (sequence : Nat) : Statement (.reprint src seq sequence) := of_request rfl rfl rfl
theorem readPending (src seq : Byte) (chan : Option Chan) : Statement (.readPending src seq chan) :=
  of_request rfl rfl rfl
theorem openRoute (src seq : Byte) : Statement (.openRoute src seq) := of_request rfl rfl rfl
theorem closeRoute (src seq : Byte) : Statement (.closeRoute src seq) := of_request rfl rfl rfl
theorem nextDrop (src seq : Byte) : Statement (.nextDrop src seq) := of_request rfl rfl rfl
theorem readDrop (src seq : Byte) (drop : Nat) : Statement (.readDrop src seq drop) := of_request rfl rfl rfl
theorem skip (src seq : Byte) (drop : Nat) : Statement (.skip src seq drop) := of_request rfl rfl rfl
theorem restore (src seq : Byte) (drop : Nat) : Statement (.restore src seq drop) := of_request rfl rfl rfl
theorem addDrop (src seq : Byte) (form : AddForm) : Statement (.addDrop src seq form) := of_request rfl rfl rfl
theorem cancelDrop (src seq : Byte) (drop : Nat) : Statement (.cancelDrop src seq drop) := of_request rfl rfl rfl
theorem readTotals (src seq : Byte) : Statement (.readTotals src seq) := of_request rfl rfl rfl
theorem beginLoad (src seq : Byte) (kind : Option TableKind) (count : Nat) :
    Statement (.beginLoad src seq kind count) := of_request rfl rfl rfl
theorem loadPiece (src seq : Byte) (first : Nat) (entries : List Entry) (ragged : Bool) :
    Statement (.loadPiece src seq first entries ragged) := of_request rfl rfl rfl
theorem activate (src seq : Byte) : Statement (.activate src seq) := of_request rfl rfl rfl
theorem abandon (src seq : Byte) : Statement (.abandon src seq) := of_request rfl rfl rfl
theorem writeSetting (src seq : Byte) (setting : Option Setting) (value : Int) :
    Statement (.writeSetting src seq setting value) := of_request rfl rfl rfl
theorem readRecord (src seq : Byte) (sequence : Nat) : Statement (.readRecord src seq sequence) :=
  of_request rfl rfl rfl
theorem releaseThrough (src seq : Byte) (sequence : Nat) : Statement (.releaseThrough src seq sequence) :=
  of_request rfl rfl rfl
theorem readHealth (src seq : Byte) (page : Nat) : Statement (.readHealth src seq page) := of_request rfl rfl rfl
theorem loadCompartment (src seq : Byte) (comp product litres : Nat) :
    Statement (.loadCompartment src seq comp product litres) := of_request rfl rfl rfl
theorem writeMetrologySetting (src seq : Byte) (setting : Option MetSetting) (value : Int) :
    Statement (.writeMetrologySetting src seq setting value) := of_request rfl rfl rfl
theorem openProving (src seq : Byte) (chan : Option Chan) (litres : Nat) :
    Statement (.openProving src seq chan litres) := of_request rfl rfl rfl
theorem provingResult (src seq : Byte) (chan : Option Chan) (observed : Nat) :
    Statement (.provingResult src seq chan observed) := of_request rfl rfl rfl
theorem applyFactor (src seq : Byte) : Statement (.applyFactor src seq) := of_request rfl rfl rfl
theorem clearLockout (src seq : Byte) : Statement (.clearLockout src seq) := of_request rfl rfl rfl
theorem status (src seq : Byte) : Statement (.status src seq) := of_request rfl rfl rfl
theorem setClock (src seq : Byte) (seconds : Option Nat) : Statement (.setClock src seq seconds) :=
  of_request rfl rfl rfl
theorem restart (src seq : Byte) : Statement (.restart src seq) := of_request rfl rfl rfl
theorem fTransmitEnd : Statement .fTransmitEnd := of_no_request rfl
theorem cTransmitEnd : Statement .cTransmitEnd := of_no_request rfl
theorem silenceTimerExpiry (node : Byte) : Statement (.silenceTimerExpiry node) := of_no_request rfl
theorem probeStalenessExpiry (chan : Chan) : Statement (.probeStalenessExpiry chan) := of_no_request rfl
theorem noticeTimerExpiry (chan : Chan) : Statement (.noticeTimerExpiry chan) := of_no_request rfl
theorem settleQuietExpiry (chan : Chan) : Statement (.settleQuietExpiry chan) := of_no_request rfl
theorem settleLimitExpiry (chan : Chan) : Statement (.settleLimitExpiry chan) := of_no_request rfl
theorem answerTimerExpiry (chan : Chan) : Statement (.answerTimerExpiry chan) := of_no_request rfl
theorem arbiterTake : Statement .arbiterTake := of_no_request rfl
theorem recordProgramEnd (ok : Bool) (left : SlotLeft) (report : RetireReport) :
    Statement (.recordProgramEnd ok left report) := of_no_request rfl
theorem drainedMarkEnd (ok : Bool) (report : RetireReport) : Statement (.drainedMarkEnd ok report) :=
  of_no_request rfl
theorem eraseStart : Statement .eraseStart := of_no_request rfl
theorem eraseEnd (ok : Bool) (markOk : Bool) : Statement (.eraseEnd ok markOk) := of_no_request rfl
theorem storeWriteEnd (region : Region) (ok : Bool) : Statement (.storeWriteEnd region ok) := of_no_request rfl
theorem recordReadEnd (readable : Bool) : Statement (.recordReadEnd readable) := of_no_request rfl

end Sys2Proof.Laws.WellFormed
end

