-- ==== Sys2Proof/Laws/Rooms.lean ====
section
/-! SUPPORT. How many free places of the C-bound queue the shared operations take, while no frame waits for one. -/
namespace Sys2Proof.Machine

/-- From `s` to `t` at most `k` free places are taken, no frame comes to wait, and the requests stay as they are. -/
def Takes (k : Nat) (s t : State) : Prop := ∀ n, RoomFor (n + k) s → RoomFor n t ∧ t.req = s.req

theorem Takes.refl (s : State) : Takes 0 s s := fun _ h => ⟨h, rfl⟩

theorem Takes.trans {j k : Nat} {s t u : State} (h : Takes j s t) (g : Takes k t u) : Takes (k + j) s u := by
  intro n hn
  have ht := h (n + k) (by rw [Nat.add_assoc]; exact hn)
  have hu := g n ht.1
  exact ⟨hu.1, hu.2.trans ht.2⟩

/-- Operations that keep the C-bound side and the requests take no place. -/
theorem Takes.of_eq {s t : State} (hq : t.line.cq = s.line.cq) (hw : t.line.cwait = s.line.cwait) (hr : t.req = s.req) :
    Takes 0 s t := by
  intro n hn
  have := hn.free
  exact ⟨⟨by simpa [commonUsed, hq] using this, hw.trans hn.noneWaits⟩, hr⟩

theorem RoomFor.weaken {m n : Nat} {s : State} (h : RoomFor n s) (hm : m ≤ n) : RoomFor m s :=
  ⟨Nat.le_trans (Nat.add_le_add_left hm _) h.free, h.noneWaits⟩

theorem Takes.weaken {j k : Nat} {s t : State} (h : Takes j s t) (hk : j ≤ k) : Takes k s t :=
  fun n hn => h n (hn.weaken (Nat.add_le_add_left hk n))

theorem RoomFor.answers {n : Nat} {s : State} (h : RoomFor (n + 1) s) : AnswerRoom s :=
  .inl (Nat.lt_of_lt_of_le (Nat.lt_add_of_pos_right (Nat.succ_pos n)) h.free)

theorem RoomFor.common {n : Nat} {s : State} (h : RoomFor (n + 1) s) : commonFree s = true := by
  have := h.free
  simp only [commonFree, decide_eq_true_eq]
  omega

/-! ### The line's own operations -/

theorem takes_startC (s : State) : Takes 0 s (startC s) := by
  intro n h
  unfold startC
  split
  · split
    · rename_i e rest _ hq
      have hw := h.noneWaits
      have hf := h.free
      unfold handPlace
      rw [show (modLine (fun l => { l with cline := some e.frame, cq := rest }) s).line.cwait = [] from hw]
      refine ⟨⟨?_, hw⟩, rfl⟩
      rw [commonUsed, hq, List.filter_cons] at hf
      show (rest.filter _).length + n ≤ 14
      split at hf
      · simp only [List.length_cons] at hf
        omega
      · exact hf
    · exact ⟨h, rfl⟩
  · exact ⟨h, rfl⟩

theorem takes_queueC (f : CFrame) (r : Bool) (s : State) : Takes 1 s (queueC f r s) := by
  intro n h
  refine ⟨⟨?_, h.noneWaits⟩, rfl⟩
  have := h.free
  cases r <;> simp [commonUsed, queueC, modLine, List.filter_append] at * <;> omega

theorem takes_takeCSeq (s : State) : Takes 0 s (takeCSeq s) := Takes.of_eq rfl rfl rfl

theorem takes_putNotice (c : Chan) (x : Notice) (s : State) : Takes 1 s (putNotice c x s) := by
  unfold putNotice
  dsimp only
  split
  · refine fun n h => ⟨⟨?_, h.noneWaits⟩, rfl⟩
    have := h.free
    simp only [commonUsed, takeCSeq, modLine, List.filter_map, List.length_map] at *
    refine Nat.le_trans ?_ (Nat.le_of_succ_le this)
    refine Nat.add_le_add_right (Nat.le_of_eq ?_) n
    congr 1
    apply List.filter_congr
    intro e _
    simp only [Function.comp]
    split <;> rfl
  split
  · rename_i h
    intro n hn
    exfalso
    simp [takeCSeq, modLine, hn.noneWaits] at h
  split
  · exact ((takes_takeCSeq s).trans (takes_queueC _ _ _)).trans (takes_startC _)
  · rename_i h
    exact fun n hn => absurd hn.common h

theorem takes_modCh (c : Chan) (f : Channel → Channel) (s : State) : Takes 0 s (modCh c f s) :=
  Takes.of_eq (by simp) (by simp) (by simp)

theorem takes_produceNotice (c : Chan) (s : State) : Takes 1 s (produceNotice c s) := by
  unfold produceNotice
  dsimp only
  split
  · exact (Takes.of_eq (by simp) (by simp) (by simp)).weaken (Nat.zero_le 1)
  · exact Takes.trans (t := modMeter c (fun m => { m with noticeTimer := true }) _)
      (Takes.of_eq (by simp) (by simp) (by simp)) (takes_putNotice _ _ _)

theorem takes_sendPrint (p : Print) (s : State) : Takes 1 s (sendPrint p s) := by
  refine Takes.trans (j := 1) (k := 0) ?_ (takes_startC _)
  intro n hn
  unfold putPrint
  rw [if_pos hn.common]
  exact (Takes.trans (takes_queueC (.print s.line.cseq p) false s) (takes_takeCSeq _)) n hn

/-- Orders touch the F-bound side only. -/
theorem takes_placeOrder (c : Chan) (p : Pos) (b : Byte) (s : State) : Takes 0 s (placeOrder c p b s) := by
  have start : ∀ u : State, Takes 0 u (startF u) := by
    intro u
    unfold startF
    split
    · split <;> exact Takes.of_eq rfl rfl rfl
    · exact .refl _
  unfold placeOrder
  dsimp only
  split
  · refine Takes.trans (j := 0) (k := 0) ?_ (start _)
    exact Takes.of_eq rfl rfl rfl
  · exact .refl _

theorem takes_issueOrder (c : Chan) (p : Pos) (s : State) : Takes 0 s (issueOrder c p s) := by
  unfold issueOrder
  split
  · exact Takes.trans (j := 0) (k := 0) (takes_modCh c _ s) (takes_placeOrder _ _ _ _)
  · exact .refl _

theorem takes_gateClose (c : Chan) (s : State) : Takes 0 s (gateClose c s) := by
  unfold gateClose
  split
  · exact .refl _
  · exact takes_issueOrder _ _ _

/-! ### The operations over a channel -/

theorem takes_settle (c : Chan) (e : EndCause) (s : State) : Takes 1 s (settle c e s) := by
  unfold settle
  refine Takes.trans (j := 0) (k := 1) (t := gateClose c _) ?_ (takes_produceNotice _ _)
  refine Takes.trans (j := 0) (k := 0) (t := modCtx c _ (endEpisode c e s)) ?_ (takes_gateClose _ _)
  exact Takes.of_eq (by simp [endEpisode]) (by simp [endEpisode]) (by simp [endEpisode])

theorem takes_enterHeld (c : Chan) (g : List Cause) (p : Cause) (b : Byte) (s : State) :
    Takes 1 s (enterHeld c g p b s) := by
  unfold enterHeld
  dsimp only
  refine Takes.trans (j := 0) (k := 1) (t := gateClose c _) ?_ (takes_produceNotice _ _)
  refine Takes.trans (j := 0) (k := 0) ?_ (takes_gateClose _ _)
  split <;> exact Takes.of_eq (by simp [resetCreep, endEpisode]) (by simp [resetCreep, endEpisode])
    (by simp [resetCreep, endEpisode])

theorem takes_handCauses (c : Chan) (g : List Cause) (b : Byte) (s : State) : Takes 1 s (handCauses c g b s) := by
  unfold handCauses
  split
  · exact (Takes.refl _).weaken (Nat.zero_le 1)
  split
  · exact takes_enterHeld _ _ _ _ _
  · exact takes_enterHeld _ _ _ _ _
  · exact takes_enterHeld _ _ _ _ _
  · exact takes_enterHeld _ _ _ _ _
  · exact (takes_modCh c _ s).weaken (Nat.zero_le 1)
  all_goals exact (Takes.refl _).weaken (Nat.zero_le 1)

theorem takes_leaveIdle (c : Chan) (s : State) : Takes 2 s (leaveIdle c s) := by
  have hm : leaveIdle c s = handCauses c (openingCauses (s.setCh c (armedWith s c (s.ch c).ctx)) c) 0
      (produceNotice c (s.setCh c (armedWith s c (s.ch c).ctx))) := by
    cases c <;> rfl
  rw [hm]
  refine Takes.trans (j := 1) (k := 1) ?_ (takes_handCauses _ _ _ _)
  exact Takes.trans (j := 0) (k := 1) (Takes.of_eq (by simp) (by simp) (by simp)) (takes_produceNotice _ _)

theorem takes_toIdle (c : Chan) (s : State) : Takes 1 s (toIdle c s) := by
  unfold toIdle
  refine Takes.trans (j := 1) (k := 0) (t := produceNotice c _) ?_ (takes_modCh c _ _)
  refine Takes.trans (j := 0) (k := 1) (t := modCtl _ _) ?_ (takes_produceNotice _ _)
  refine Takes.of_eq ?_ ?_ ?_ <;> cases c <;> rfl

theorem takes_beginClose (c : Chan) (o : CloseOrigin) (r : Option Byte) (s : State) : Takes 1 s (beginClose c o r s) := by
  unfold beginClose
  dsimp only
  rw [buildAndEnter_closing]
  refine Takes.trans (j := 1) (k := 0) (t := produceNotice c _) ?_ (Takes.of_eq rfl rfl rfl)
  exact Takes.trans (j := 0) (k := 1) (Takes.of_eq (by simp) (by simp) (by simp)) (takes_produceNotice _ _)

/-! ### Answering after such operations -/

/-- An admitted station's request whose owner acts on the channels, taking at most three places, and then replies. -/
theorem roomy_answered {s u o : State} {src seq code : Byte} {k need : Cls} {owner : Owner} {r : Option RefCode}
    {x : Result} (h : Admitted s src k need) (hroom : Roomy s) (hc : requiredClass code = some need)
    (ho : owner src (actingClass s k) (taken s src code seq k) = reply src r x u)
    (ht : Takes 3 (taken s src code seq k) u) (hp : u.power.state = .on) (hu : u.offLine = o) :
    ∃ t, event (takeRequest src seq code owner) s = .next t ∧ Answered t src seq code r x ∧ t.offLine = o := by
  have hr : RoomFor (1 + 3) (taken s src code seq k) := ⟨hroom.free, hroom.noneWaits⟩
  obtain ⟨hone, hreq⟩ := ht 1 hr
  have ha : Answered (reply src r x u) src seq code r x := by
    refine reply_answered (p := { station := src, code := code, seq := seq, cls := actingClass s k })
      (RoomFor.answers (n := 0) hone) ?_ r x
    rw [hreq]
    exact find_taken h.free
  have hs : (reply src r x u).power.state ≠ .shutdown := by
    have : (reply src r x u).power.state = u.power.state :=
      offLine_field (by simp) (fun v => v.power.state) fun _ => rfl
    simp [this, hp]
  refine ⟨finish (reply src r x u), ?_, answered_finish hs ha, ?_⟩
  · rw [event, takeRequest_ready h.toReady hc h.allowed, ho]
  · rw [finish_offLine hs, reply_offLine, hu]

end Sys2Proof.Machine
end

