-- ==== Sys2Proof/Laws/Tables.lean ====
section
/-! SUPPORT. What the checks of the tables say (R24 to R27, R33): the small checks as propositions, the products and the
programs that an activation may not remove, and the checks of those two tables. -/
namespace Sys2Proof.Machine

/-- The test for repeats is that no entry repeats. -/
theorem distinct_iff {α : Type} [BEq α] [LawfulBEq α] (l : List α) : distinct l = true ↔ l.Nodup := by
  induction l with
  | nil => simp [distinct]
  | cons x rest ih => simp [distinct, ih]

theorem between_iff (low high n : Nat) : between low high n = true ↔ low ≤ n ∧ n ≤ high := by
  simp [between]

theorem optionAll_iff (p : Nat → Bool) (x : Option Nat) : optionAll p x = true ↔ ∀ n, x = some n → p n = true := by
  cases x <;> simp [optionAll]

theorem printable_iff (n : Nat) (x : List Byte) :
    printable n x = true ↔ x.length = n ∧ ∀ b ∈ x, 0x20 ≤ b.toNat ∧ b.toNat ≤ 0x7e := by
  simp [printable]

/-- R25: the volumes at which the tiers begin ascend, and each tier keeps its ranges. -/
theorem tiersAscend_iff (l : List Tier) :
    tiersAscend l = true ↔ (l.map Tier.fromVolume).Pairwise (· < ·) ∧
      ∀ t ∈ l, t.fromVolume ≤ 99999 ∧ 1 ≤ t.unitPrice ∧ t.unitPrice ≤ 99999 := by
  induction l with
  | nil => simp [tiersAscend]
  | cons t rest ih =>
    cases rest with
    | nil => simp [tiersAscend, between]
    | cons u rest =>
      simp only [tiersAscend, Bool.and_eq_true, decide_eq_true_eq, between_iff, ih, List.map_cons, List.pairwise_cons,
        List.mem_cons, forall_eq_or_imp, List.mem_map, forall_exists_index, and_imp, forall_apply_eq_imp_iff₂]
      constructor
      · rintro ⟨⟨⟨h1, h2⟩, h3⟩, h4, h5⟩
        exact ⟨⟨⟨h3, fun y hy => Nat.lt_trans h3 (h4.1 y hy)⟩, h4⟩, ⟨h1, h2⟩, h5⟩
      · rintro ⟨⟨h1, h2⟩, ⟨h3, h4⟩, h5⟩
        exact ⟨⟨⟨h3, h4⟩, h1.1⟩, h2, h5⟩

/-- R27: what a stop condition may hold. -/
theorem watchOk_iff (w : Watch) : watchOk w = true ↔ w.persistence ≤ 255 ∧
    (w.quantity = .net ∨ w.quantity = .gross → w.value ≤ 999900) ∧
    (w.quantity = .rate → w.value ≤ 2000 ∧ w.reference = .absolute) ∧
    (w.quantity = .amount → w.value ≤ 9999999 ∧ w.reference = .absolute) := by
  unfold watchOk
  cases h : w.quantity <;> simp

/-- R26: programs 0 and 1 are always held; of the others those that the table holds. -/
theorem programsAfter_isSome (l : List ProgramEntry) (n : Nat) (h : ∀ e ∈ l, e.number ≤ 7) :
    ((programsAfter l)[n]?.getD none).isSome = true ↔ n = 0 ∨ n = 1 ∨ ∃ e ∈ l, e.number = n := by
  have found : (l.find? fun e => decide (e.number = n)).isSome = true ↔ ∃ e ∈ l, e.number = n := by
    simp [List.find?_isSome]
  unfold programsAfter
  rw [List.getElem?_map]
  by_cases hn : n < 8
  · rw [List.getElem?_range hn]
    simp only [Option.map_some, Option.getD_some]
    cases hf : l.find? fun e => decide (e.number = n) with
    | some e => simp [found.mp (by rw [hf]; rfl)]
    | none =>
      have none_found : ¬ ∃ e ∈ l, e.number = n := fun k => by simpa [hf] using found.mpr k
      simp only [none_found, or_false]
      match n, hn with
      | 0, _ => simp [factoryPrograms]
      | 1, _ => simp [factoryPrograms]
      | 2, _ | 3, _ | 4, _ | 5, _ | 6, _ | 7, _ => simp [factoryPrograms]
  · rw [List.getElem?_eq_none (by simpa using hn)]
    simp only [Option.map_none, Option.getD_none, Option.isSome_none, Bool.false_eq_true, false_iff, not_or]
    refine ⟨by omega, by omega, ?_⟩
    rintro ⟨e, he, rfl⟩
    exact hn (Nat.lt_of_le_of_lt (h e he) (by decide))

/-- Two lists hold the same entries, in any order (R33, R34). -/
theorem sameEntries_iff {α : Type} [BEq α] [LawfulBEq α] (a b : List α) :
    sameEntries a b = true ↔ ∀ x, x ∈ a ↔ x ∈ b := by
  simp only [sameEntries, Bool.and_eq_true, List.all_eq_true, List.contains_eq_mem, decide_eq_true_eq]
  exact ⟨fun h x => ⟨h.1 x, h.2 x⟩, fun h => ⟨fun x => (h x).1, fun x => (h x).2⟩⟩

/-- The entries of a channel stay as they are (R34). -/
theorem mapChanges_eq_false (before after : List NodeEntry) (c : Chan) :
    mapChanges before after c = false ↔ ∀ e : NodeEntry, e.chan = c → (e ∈ before ↔ e ∈ after) := by
  simp only [mapChanges, Bool.not_eq_false', sameEntries_iff, List.mem_filter, decide_eq_true_eq]
  refine forall_congr' fun e => ?_
  by_cases h : e.chan = c <;> simp [h]

/-- The products that R33 keeps in the table. -/
theorem mem_productsNamed (s : State) (n : Nat) : n ∈ productsNamed s ↔
    (∃ d ∈ s.route.drops, d.plan.product = n) ∨ (∃ p ∈ additionsInFlight s, p.product = n) ∨
      (n ≠ 0 ∧ ∃ k ∈ s.comps.list, k.product = n) ∨ n ∈ loadsInFlight s := by
  unfold productsNamed
  simp only [List.mem_append, List.mem_map, List.mem_filter, bne_iff_ne, ne_eq, or_assoc]
  rw [and_comm (a := ∃ a ∈ s.comps.list, a.product = n)]

/-- The programs that R33 keeps in the table. -/
theorem mem_programsNamed (s : State) (n : Nat) : n ∈ programsNamed s ↔
    (∃ d ∈ s.route.drops, d.plan.program = n) ∨ ∃ p ∈ additionsInFlight s, p.program = n := by
  simp [programsNamed]

/-- What ACTIVATE asks of a product table (R24, R33, R70). -/
theorem tableChecks_products (s : State) (l : List ProductEntry) :
    tableChecks s (.products l) = true ↔ (l.map ProductEntry.code).Nodup ∧
      (∀ e ∈ l, productOk e = true ∧ (∃ k ∈ entriesOf s.store.curves, k.number = e.curve) ∧
        ∀ ps, s.store.prices = some ps → ∃ p ∈ ps, p.code = e.code) ∧
      ∀ n ∈ productsNamed s, ∃ e ∈ l, e.code = n := by
  have held (e : ProductEntry) :
      (curveOf s e.curve).isSome = true ↔ ∃ k ∈ entriesOf s.store.curves, k.number = e.curve := by
    simp [curveOf, List.find?_isSome]
  have priced : (match s.store.prices with
      | some prices => l.all fun e => prices.any fun p => decide (p.code = e.code)
      | none => true) = true ↔ ∀ e ∈ l, ∀ ps, s.store.prices = some ps → ∃ p ∈ ps, p.code = e.code := by
    cases s.store.prices <;> simp
  simp only [tableChecks, Bool.and_eq_true, distinct_iff, List.all_eq_true, held, List.any_eq_true,
    decide_eq_true_eq]
  constructor
  · rintro ⟨⟨⟨⟨h1, h2⟩, h3⟩, h4⟩, h5⟩
    exact ⟨h2, fun e he => ⟨h1 e he, h3 e he, priced.mp h4 e he⟩, h5⟩
  · rintro ⟨h2, h, h5⟩
    exact ⟨⟨⟨⟨fun e he => (h e he).1, h2⟩, fun e he => (h e he).2.1⟩, priced.mpr fun e he => (h e he).2.2⟩, h5⟩

/-- What ACTIVATE asks of a program table (R26, R33). -/
theorem tableChecks_programs (s : State) (l : List ProgramEntry) :
    tableChecks s (.programs l) = true ↔ (l.map ProgramEntry.number).Nodup ∧ (∀ e ∈ l, programOk e = true) ∧
      ∀ n ∈ programsNamed s, n = 0 ∨ n = 1 ∨ ∃ e ∈ l, e.number = n := by
  have low (h : ∀ e ∈ l, programOk e = true) : ∀ e ∈ l, e.number ≤ 7 := fun e he => by
    have := h e he
    simp only [programOk, Bool.and_eq_true, decide_eq_true_eq] at this
    exact this.1.1
  simp only [tableChecks, Bool.and_eq_true, distinct_iff, List.all_eq_true]
  constructor
  · rintro ⟨⟨h1, h2⟩, h3⟩
    exact ⟨h2, h1, fun n hn => (programsAfter_isSome l n (low h1)).mp (h3 n hn)⟩
  · rintro ⟨h2, h1, h3⟩
    exact ⟨⟨h1, h2⟩, fun n hn => (programsAfter_isSome l n (low h1)).mpr (h3 n hn)⟩

/-- R27: an address is free where no station, no setting and no setting being written has it. -/
theorem addressTaken_eq_false (s : State) (a : Byte) : addressTaken s a = false ↔
    (∀ x ∈ entriesOf s.store.stations, x.address ≠ a) ∧ s.store.settings.printer ≠ a ∧ s.store.settings.cab ≠ a ∧
      ¬ ∃ w ∈ s.store.settingsWrites, ∃ v,
        (w.change = .office .printer v ∨ w.change = .office .cab v) ∧ v.toNat = a.toNat := by
  have written : a.toNat ∈ addressesBeingWritten s ↔ ∃ w ∈ s.store.settingsWrites, ∃ v,
      (w.change = .office .printer v ∨ w.change = .office .cab v) ∧ v.toNat = a.toNat := by
    unfold addressesBeingWritten
    rw [List.mem_filterMap]
    refine exists_congr fun w => and_congr_right fun _ => ?_
    rcases w.change with ⟨k, v⟩ | ⟨k, v⟩
    · cases k <;> simp
    · simp
  unfold addressTaken
  simp only [Bool.or_eq_false_iff, List.any_eq_false, decide_eq_true_eq, decide_eq_false_iff_not, ne_eq,
    List.contains_eq_mem, written, and_assoc]

end Sys2Proof.Machine
end

