-- ==== Sys2Proof/Tests/Slice0.lean ====
section
/-! SUPPORT. Tests: the well-formedness checks refuse; figures of the spec's worked examples; and for every obligation with
hypotheses, states and operands that meet them together, at the boundaries of the ranges. -/
namespace Sys2Proof.Tests
open Sys2Proof.Machine

/-! ### A truck at work -/

/-- The five nodes of a channel, at `first + 1` to `first + 5` (1.1). -/
def nodesAt (c : Chan) (first : Nat) : List NodeEntry :=
  [(1, Role.tally), (2, .probe), (3, .vapour), (4, .reel), (5, .valve)].map fun x =>
    { address := BitVec.ofNat 8 (first + x.1), role := x.2, chan := c, silence := 500 }

def text (n : Nat) : List Byte := List.replicate n 0x41

def product2 : ProductEntry :=
  { code := 2, name := text 12, curve := 0, startSlow := 0, overrun := 5, minDelivery := 200, fee := 1500, tax := 2000 }

def tiers2 : List Tier := [{ fromVolume := 0, unitPrice := 1180 }, { fromVolume := 500, unitPrice := 1120 }]

def planFor (n : Nat) : Planning :=
  { number := n, account := text 10, product := 2, kind := .fill, preset := none, ullage := some 1000
    ceiling := none, adjustment := 0, program := 1 }

def loadBody : LoadBody :=
  { comp := 2, product := 2, prevProduct := 0, prevBase := 0, prevDelivered := 0, added := 120000, writtenOff := 0
    base := 120000 }

def recordOf (seq : Nat) (b : Body) : Record :=
  { seq := seq, time := 5, clockUnset := false, cal := 0, cfg := 0, totA := 0, totB := 0, ticketHigh := 0, body := b }

def ticket : TicketBody :=
  { routeId := 7, drop := 27, account := text 10, product := 2, chan := .a, comp := 2, status := .short, flags := {}
    origin := .request, openTime := 3, authorised := 5000, gross := 1000, net := 1000, temp := 150, vcf := 10000
    mf := 10000, fwd := 1000, rev := 0, gaps := 0, lines := [], adjustment := 0, fee := 0, tax := 0, due := 11800
    episodes := [], holdCount := 0, holds := [], reservation := 5500 }

/-- The part ON, with two channels, one product, stations of the three classes at 30, 40 and 120, an open route of three
drops, a loaded compartment and two records in block 0. -/
def truck : State :=
  { State.reset with
    power := { state := .on, clock := 1000, unset := false }
    pins := { voltage := 12800, ignitionOn := true, switchOpen := false }
    store := { State.reset.store with
      settings := { printer := 50, cab := 31 }
      products := some [product2]
      prices := some [{ code := 2, tiers := tiers2 }]
      curves := some [{ number := 0, factors := List.replicate 16 10000 }]
      nodes := some (nodesAt .a 10 ++ nodesAt .b 20)
      stations := some [{ address := 120, cls := .metrology }, { address := 40, cls := .office },
        { address := 30, cls := .driver }] }
    route := { state := .opened, header := some { id := 7, count := 3, unplanned := true, ceiling := none }
               drops := [{ plan := planFor 27, position := 1 },
                 { plan := planFor 28, position := 2, state := .partly, delivered := 1000, amount := 11800, tickets := [1] },
                 { plan := planFor 29, position := 3, state := .skipped }] }
    comps := { list := [{}, { product := 2, base := 120000, delivered := 1000 }, {}, {}]
               totals := List.replicate 8 {} }
    journal := { blocks := { state := .current, erases := 0, writePoint := 2 } ::
                   List.replicate 63 { state := .erased, erases := 0, writePoint := 0 }
                 index := [{ seq := 1, kind := .load, block := 0, slot := 0, drained := true },
                   { seq := 2, kind := .ticket, block := 0, slot := 1, drained := false }]
                 newestSeq := 2, newestTicket := 1, compAnchors := [none, some 1, none, none] }
    met := { resultA := some { seq := 2, pulses := 100000, temp := 150 } }
    nv := { State.reset.nv with
      array := { slots := [.written (recordOf 1 (.load loadBody)) true, .written (recordOf 2 (.ticket 1 ticket)) false] ++
                   List.replicate 14 .erased } :: List.replicate 63 {} } }

def onA (f : Channel → Channel) (s : State) : State := { s with chA := f s.chA }
def ctxA (f : Ctx → Ctx) (s : State) : State := onA (fun x => { x with ctx := f x.ctx }) s
def meterA (f : Meter → Meter) (s : State) : State := onA (fun x => { x with meter := f x.meter }) s
def gateA (f : Gate → Gate) (s : State) : State := onA (fun x => { x with gate := f x.gate }) s

/-- Channel A in a state, on drop 27 from compartment 2. -/
def inState (st : CtxState) (s : State) : State :=
  { s with
    chA := { s.chA with
      ctx := { s.chA.ctx with
        state := st, drop := some { plan := planFor 27, routeId := 7 }, comp := some 2, product := some 2
        authorised := 5000, reservation := 5500, openTime := 900, openUnset := false
        episodes := if st = .armed then [] else [{ startNet := 0 }]
        causes := if st = .held then [.air] else [], rest := if st = .held then some 1500 else none
        quiet := if st = .settling then some 1500 else none, limit := if st = .settling then some 10 else none
        requester := if st = .closing then some 30 else none
        pending := if st = .closing ∨ st = .faulted then some (.ticket ticket) else none }
      meter := { s.chA.meter with
        baseline := some { fwd := 100, rev := 0, seq := 7 }, fwd := if st = .armed then 0 else 300
        probe := some 150, fresh := true, stale := .running, vapour := .liquid, reel := .out }
      gate := { s.chA.gate with
        nextOrder := 3, position := if st = .flowing then .full else .closed
        requested := if st = .flowing then some .full else none }
      monitor := { program := some 1 }
      silence := (nodesAt .a 10).map fun n => { node := n.address, running := true } }
    ctl := { s.ctl with faultOrder := if st = .faulted then [.a] else [] } }

/-- A context in mode PROVING. -/
def proving (s : State) : State := ctxA (fun x => { x with mode := .proving, drop := none, comp := none, product := none }) s

/-- A proving run's record, and channel A with it pending, judged sound or not. -/
def run : ProvingBody :=
  { chan := .a, openTime := 1, fwd := 50, rev := 0, gross := 50, temp := 3, target := 100, episodes := [] }

def provingClose (sound : Bool) (s : State) : State :=
  ctxA (fun x => { x with pending := some (.proving run sound) }) (proving s)

def starting (p : StartPhase) (s : State) : State :=
  { s with power := { s.power with state := .starting, phase := p } }

def switchOpened (s : State) : State := { s with pins := { s.pins with switchOpen := true } }

/-- A request of a station in progress. -/
def asking (st code : Byte) (s : State) : State :=
  { s with req := { s.req with inProgress := [{ station := st, code := code, seq := 9, cls := .office }] } }

def programming (a : Append) (b : Body) (retry : Bool) (s : State) : State :=
  { s with journal := { s.journal with busy := .programming a (recordOf 3 b) 0 2 retry } }

def held (l : Staging) (s : State) : State := { s with store := { s.store with staging := l } }
def loadOf (st : Byte) (k : TableKind) (n : Nat) (es : List Entry) : Load :=
  { holder := st, kind := k, declared := n, entries := es }
def locked (k : Lockout) (s : State) : State := { s with ctl := { s.ctl with lockout := k } }
def erased (s : State) : State := { s with nv := { s.nv with array := List.replicate 64 {} } }
def through : Frame := { dst := 90, src := 33, kind := 0x50, seq := 1, payload := [1, 2] }

/-- The next state of a command. -/
def after (i : Instr) (s : State) : State := match exec i s with | .next t => t | _ => s

/-- A station with an entry of the class is free: the part is ON, takes its requests, and no frame waits for a place. -/
abbrev Quiet (s : State) (st : Byte) (k : Cls) : Prop :=
  s.power.state = .on ∧ s.req.restart = none ∧ s.line.cwait = [] ∧ addressOk st = true ∧ stationClass s st = some k ∧
  ∀ p ∈ s.req.inProgress, p.station ≠ st

/-- `Admitted` as what a closed term decides. -/
abbrev Admits (s : State) (st : Byte) (k need : Cls) : Prop :=
  Quiet s st k ∧ clsRank need ≤ clsRank (actingClass s k) ∧ (commonUsed s.line < 14 ∨ reservedUsed s.line < 2)

theorem none_waits {s : State} {st : Byte} (h : s.line.cwait = []) :
    ∀ r : Reply, .reply r ∈ s.line.cwait → r.dst ≠ st := by
  intro r hr
  rw [h] at hr
  cases hr

theorem ready {s : State} {st : Byte} {k : Cls} : Quiet s st k → Ready s st k
  | ⟨hon, hrun, hwait, haddr, hentry, hfree⟩ => ⟨hon, haddr, hentry, hfree, none_waits hwait, hrun⟩

theorem admitted {s : State} {st : Byte} {k need : Cls} (h : Admits s st k need) : Admitted s st k need :=
  ⟨ready h.1, h.2.2, h.2.1⟩

theorem admitted_and {s : State} {st : Byte} {k need : Cls} {p : Prop} (h : Admits s st k need ∧ p) :
    Admitted s st k need ∧ p := h.imp_left admitted

theorem roomy {s : State} (h : commonUsed s.line + 4 ≤ 14 ∧ s.line.cwait = []) : Roomy s := ⟨h.1, h.2⟩

/-! ### Well-formedness refuses -/

theorem test_ill_formed :
    [Instr.storeRead [.settings, .settings], .reconstruction [(64, 0)] [], .reconstruction [(0, 16)] [],
      .reconstruction [] [64], .malformedFrame .f (frameBytes through), .tally 128 11 0 0 0 1, .tally 127 0 0 0 0 1,
      .tally 127 127 0 0 0 1, .throughFrame .f { through with src := 0 }, .throughFrame .c { through with dst := 128 },
      .throughFrame .c { through with payload := List.replicate 256 0 }, .nonRequestToZero 0 0x11 0 [],
      .nonRequestToZero 5 kindRequest 0 [], .nonRequestToZero 5 0x11 0 (List.replicate 256 0),
      .unknownStationRequest 127 0 [], .unknownStationRequest 5 0 (List.replicate 256 0), .unknownRequestCode 0 0 0x99,
      .unknownRequestCode 5 0 0x60, .openTicket 0 0 1 (some .a) 1, .status 127 0, .silenceTimerExpiry 0,
      .recordProgramEnd true .written { lost := [16], markOk := true },
      .drainedMarkEnd true { lost := [16], markOk := true }].all (fun i => !i.wellFormed) = true := by
  decide +kernel

theorem test_well_formed :
    [Instr.storeRead [.settings], .reconstruction [(63, 15)] [63], .malformedFrame .f [1, 2], .tally 127 126 0 0 0 1,
      .throughFrame .f through, .nonRequestToZero 126 0x11 0 (List.replicate 255 0), .unknownStationRequest 1 0 [],
      .unknownRequestCode 5 0 0x99, .status 1 0, .recordProgramEnd true .written { lost := [0, 15], markOk := true }].all
      (fun i => i.wellFormed) = true := by
  decide +kernel

/-! ### Frames and bytes (R2, R3, R5, R62, R168) -/

/-- The check value of the generator R3 names, over the nine digits. -/
theorem test_check16 : check16 [0x31, 0x32, 0x33, 0x34, 0x35, 0x36, 0x37, 0x38, 0x39] = 0x29B1#16 := by decide +kernel

theorem test_frame_round_trip : parseFrame (frameBytes through) = some through := by decide +kernel

theorem test_frame_with_a_wrong_bit_is_none :
    parseFrame ((frameBytes through).modify 5 fun b => b ^^^ 1) = none := by decide +kernel

theorem test_tally_elapsed_range :
    (tallyOf (tallyPayload 1 2 1)).isSome ∧ (tallyOf (tallyPayload 1 2 5000)).isSome ∧
      tallyOf (tallyPayload 1 2 0) = none ∧ tallyOf (tallyPayload 1 2 5001) = none := by decide +kernel

theorem test_lengths :
    (noticePayload (noticeOf truck .a)).length = 25 ∧
      (recordBytes (recordOf 2 (.ticket 1 ticket))).length = 224 := by decide +kernel

/-! ### Figures of the worked examples (3.13, 5.12, 8.7, 10.5) -/

theorem test_vcf_of_3_13 :
    vcfOf (List.replicate 4 10200 ++ [10100, 10074] ++ List.replicate 10 10000) (-58) = (10078, false) := by
  decide +kernel

theorem test_gross_and_temperature_of_3_13 :
    let m : Meter := { fwd := 440, rev := 3, weighted := -25626, mf := 10020 }
    grossOf m = 437 ∧ averageTemp m = -58 ∧ netOf 437 10078 = 440 := by decide +kernel

theorem test_earlier_ticket_of_5_12 :
    let p := priceOf (some product2) tiers2 (-50) true 0 41800
    p.adjustment = -2090 ∧ p.tax = 9447 ∧ p.due = 56681 ∧ p.fee = 0 := by decide +kernel

theorem test_credit_bounds_of_5_12 :
    litresAmount (some product2) tiers2 (-50) 41800 488 = 63250 ∧
      litresAmount (some product2) tiers2 (-50) 41800 489 = 63378 := by decide +kernel

theorem test_authorised_of_5_12 : authorisedVolume truck (planFor 27) 41800 56681 60000 5 = 58200 := by decide +kernel

theorem test_factor_of_10_5 : 20074 * 10000 / 20008 = 10032 := by decide

/-- 6.8: four tallies of 1000 ms give 60 and 82 L/min; three give 0. -/
theorem test_rate_of_6_8 :
    rateOf (List.replicate 4 { gross := 100, elapsed := 1000 }) = 60 ∧
      rateOf (List.replicate 3 { gross := 100, elapsed := 1000 } ++ [{ gross := 250, elapsed := 1000 }]) = 82 ∧
      rateOf (List.replicate 3 { gross := 100, elapsed := 1000 }) = 0 := by decide +kernel

/-! ### Steps -/

/-- From reset, a 12 V supply starts the part, and the store's read and reconstruction bring it ON. -/
theorem test_reset_comes_on :
    (after (.reconstruction [] []) (after (.storeRead []) (after (.powerOn 12800) State.reset))).power.state = .on := by
  decide +kernel

/-- 3.13, sequence 203: the forward total has passed 65535, and the delta is 120. -/
theorem test_tally_passes_the_top :
    let s := meterA (fun m => { m with baseline := some { fwd := 65480, rev := 12, seq := 202 } }) (inState .flowing truck)
    (after (.tally 127 11 203 64 12 500) s).chA.meter.fwd = 420 := by decide +kernel

/-- 7.7: VAPOUR holds a flowing context with AIR as the primary cause, at its figure, and the gate issues CLOSED. -/
theorem test_vapour_holds :
    let t := after (.contact 127 13 5 1) (inState .flowing truck)
    t.chA.ctx.state = .held ∧ t.chA.ctx.primary = some .air ∧ t.chA.ctx.holdCount = 1 ∧ t.chA.gate.position = .closed ∧
      t.ctl.alert = true := by decide +kernel

/-- 2.9: a piece that repeats an entry is refused ARGUMENT with the received count, and the load stays. -/
theorem test_repeated_piece_is_refused :
    let s := held (.filling (loadOf 40 .product 3 [.product product2, .product product2])) truck
    let t := after (.loadPiece 40 1 1 [.product product2] false) s
    t.line.cline = some (.reply { dst := 40, seq := 1, code := 0x31, refusal := some .argument, result := .received 2 }) ∧
      t.store = s.store := by decide +kernel

/-- 8.7: opening from a compartment reserves the authorised volume and the overrun. -/
theorem test_open_reserves :
    ((after (.openTicket 30 1 27 (some .a) 2) truck).comps.list.map Comp.reserved) = [0, 100500, 0, 0] := by decide +kernel

/-- 9.10: a failed program retires its block, and the retry goes to a fresh block under the same sequence. -/
theorem test_failed_program_is_retried :
    let t := after (.recordProgramEnd false .unreadable { lost := [], markOk := true })
      (programming (.manage 40 (.load loadBody)) (.load loadBody) false truck)
    blockState t 0 = .retired ∧
      (match t.journal.busy with | .programming _ r b n retry => (r.seq, b, n, retry) | _ => (0, 0, 0, false)) =
        (3, 1, 0, true) := by decide +kernel

/-- 1.7: a TALLY that is no broadcast is a through frame; with the common places full it is dropped and counted on F. -/
theorem test_full_queue_drops :
    let s := { truck with line := { truck.line with cq := List.replicate 14 { frame := .fwd through, reserved := false }
                                                    cline := some (.fwd through) } }
    (after (.throughFrame .f { through with dst := 7, src := 11, kind := kindTally }) s).line.fcnt.dropped = 1 := by
  decide +kernel

/-! ### The obligations' hypotheses are met -/

theorem witness_StepRunsTheFrontCommand : { truck with pending := [.clockSecond, .eraseStart] }.pending ≠ [] := by
  decide +kernel

theorem witness_EmptyQueueAdvancesRestTimersOnly :
    (inState .held truck).pending = [] ∧ (inState .held truck).chA.ctx.rest = some 1500 ∧
      (inState .held truck).chB.ctx.rest = none := by decide +kernel

theorem witness_UnknownStationRequestDroppedAndCounted :
    requestFrame (.status 126 1) = some (126, 1, 0x60) ∧ truck.power.state = .on ∧
      (starting .reading truck).power.state = .starting ∧ addressOk 126 = true ∧ stationClass truck 126 = none ∧
      addressOk 1 = true ∧ stationClass (starting .reading truck) 1 = none := by decide +kernel

theorem witness_UnknownStationRequestDroppedAndCounted_standby :
    let s := { truck with power := { truck.power with state := .standby } }
    s.power.state = .standby ∧ s.line.cwait = [] ∧ stationClass s 126 = none ∧
      ([truck, s].map fun u => (after (.unknownStationRequest 126 1 [0x60]) u).line.ccnt.unknown) = [1, 1] := by
  decide +kernel

theorem witness_BusyStationRefusedWithoutBeingTaken :
    let s := asking 30 0x11 truck
    requestFrame (.status 30 1) = some (30, 1, 0x60) ∧ s.power.state = .on ∧ addressOk 30 = true ∧
      stationClass s 30 = some .driver ∧ { station := 30, code := 0x11, seq := 9, cls := .office } ∈ s.req.inProgress ∧
      (∀ r : Reply, .reply r ∈ s.line.cwait → r.dst ≠ 30) ∧ AnswerRoom s :=
  ⟨rfl, rfl, rfl, by decide +kernel, by decide +kernel, none_waits rfl, .inl (by decide +kernel)⟩

theorem witness_RequestsBusyInStartingAndAfterRestart :
    (let s := starting .reconstructing truck
     requestFrame (.skip 30 1 27) = some (30, 1, 0x24) ∧ (0x24 : Byte) ≠ 0x60 ∧ s.power.state = .starting ∧
       stationClass s 30 = some .driver ∧ s.req.inProgress = [] ∧ AnswerRoom s) ∧
    (let s := { truck with req := { truck.req with restart := some false } }
     requestFrame (.status 30 1) = some (30, 1, 0x60) ∧ s.power.state = .on ∧ stationClass s 30 = some .driver ∧
       s.req.inProgress = [] ∧ s.req.restart = some false ∧ AnswerRoom s) :=
  ⟨⟨rfl, by decide, rfl, by decide +kernel, rfl, .inl (by decide +kernel)⟩,
   ⟨rfl, rfl, by decide +kernel, rfl, rfl, .inl (by decide +kernel)⟩⟩

theorem witness_RequestsJudgedByCodeAndClass :
    Admitted truck 30 .driver .driver ∧ requestFrame (.readHealth 30 1 1) = some (30, 1, 0x42) ∧
      requiredClass 0x42 = some .office ∧ clsRank (actingClass truck .driver) < clsRank .office ∧
      requiredClass 0x50 = some .metrology ∧ clsRank (actingClass truck .metrology) < clsRank .metrology ∧
      Admitted truck 120 .metrology .office ∧ requiredClass 0x99 = none :=
  ⟨admitted (by decide +kernel), rfl, by decide +kernel, by decide +kernel, by decide +kernel, by decide +kernel,
   admitted (by decide +kernel), by decide +kernel⟩

theorem witness_RequestsJudgedByCodeAndClass_lockout :
    let s := locked .storage truck
    Admitted s 30 .driver .driver ∧ Admitted s 40 .office .office ∧
      Admitted (switchOpened s) 120 .metrology .metrology ∧ s.ctl.lockout ≠ .none ∧ barred s .a = false ∧
      (([.skip 30 1 27, .beginLoad 40 1 none 0, .openProving 120 1 (some .a) 0] : List Instr).map fun i =>
        (requestFrame i).bind fun x => requiredClass x.2.2) = [some .driver, some .office, some .metrology] :=
  ⟨admitted (by decide +kernel), admitted (by decide +kernel), admitted (by decide +kernel), by decide +kernel⟩

theorem witness_StatusAndTotalsReport :
    Admitted truck 30 .driver .driver ∧
    (let s := starting .reading { truck with route := {}, journal := {} }
     s.power.state = .starting ∧ addressOk 30 = true ∧ stationClass s 30 = some .driver ∧ s.req.inProgress = [] ∧
       s.req.restart = none ∧ AnswerRoom s ∧ s.route = {} ∧ s.journal = {}) :=
  ⟨admitted (by decide +kernel), rfl, by decide +kernel, by decide +kernel, rfl, rfl, .inl (by decide +kernel), rfl, rfl⟩

theorem witness_ReadPendingShowsThePendingRecord :
    Admitted (inState .closing truck) 30 .driver .driver ∧
      ((inState .closing truck).ch .a).ctx.state = .closing ∧
      ((inState .closing truck).ch .a).ctx.pending = some (.ticket ticket) ∧
      ((inState .faulted truck).ch .a).ctx.state = .faulted ∧
      ((inState .faulted truck).ch .a).ctx.pending = some (.ticket ticket) ∧
      ((provingClose true (inState .closing truck)).ch .a).ctx.state = .closing ∧
      ((provingClose true (inState .closing truck)).ch .a).ctx.pending = some (.proving run true) ∧
      ((inState .closing truck).ch .b).ctx.state ≠ .closing ∧ ((inState .closing truck).ch .b).ctx.state ≠ .faulted :=
  ⟨admitted (by decide +kernel), by decide +kernel⟩

theorem witness_DropQueriesAnswerFromTheTable :
    Admitted truck 30 .driver .driver ∧ truck.route.state ≠ .none ∧
      (∀ d, truck.route.drops.head? = some d → d.state = .planned ∧ d.claimant = none ∧ d.noteMark = false) ∧
      (∃ b d after, (inState .armed truck).route.drops = [b] ++ d :: after ∧ d.state = .partly) ∧
      (∀ e ∈ truck.route.drops, e.plan.number ≠ 30) ∧ State.reset.route.state = .none ∧
      (∀ e ∈ ({ truck with route := { truck.route with drops := truck.route.drops.drop 2 } } : State).route.drops,
        ¬ ((e.state = .planned ∨ e.state = .partly) ∧ e.claimant = none ∧ e.noteMark = false)) := by
  refine ⟨admitted (by decide +kernel), by decide +kernel, ?_, ⟨_, _, _, rfl, rfl⟩,
    by decide +kernel⟩
  · intro d h
    cases h
    exact ⟨rfl, rfl, rfl⟩

theorem witness_ReadHealthServesItsPages : Admitted truck 40 .office .office := admitted (by decide +kernel)

theorem witness_ReadHealthServesItsPages_wear :
    (truck.journal.blocks.filter fun b => decide (b.state ≠ .retired)).map BlockInfo.erases ≠ [] := by decide +kernel

theorem witness_ClockIsSetAndCounts :
    Admitted truck 40 .office .office ∧ 4294967295 ≤ 4294967295 ∧
      (∀ n, some 4294967296 = some n → 4294967295 < n) ∧ (∀ n, (none : Option Nat) = some n → 4294967295 < n) ∧
      (starting .reading truck).power.state = .starting ∧ State.reset.power.state = .off ∧
      (let s := after (.brown 9000) (inState .paused truck)
       s.power.state = .shutdown ∧ s.journal.waiting ≠ []) :=
  ⟨admitted (by decide +kernel), by decide, by simp, by simp, by decide +kernel⟩

theorem witness_StartingBeginsEndsAndResumes :
    State.reset.power.state = .off ∧ (9499 < 9500 ∧ 8999 < 9000) ∧
    (let s := starting .heldBrown { truck with power := { truck.power with level := .brown } }
     s.power.state = .starting ∧ s.power.level = .brown ∧ s.power.phase ≠ .reconstructing ∧
       brownLevel s.store.settings + hysteresis s.store.settings = 9500 ∧
       lowStep s.store.settings + hysteresis s.store.settings = 12000) ∧
    (let s := starting .reading truck
     s.power.state = .starting ∧ s.power.level ≠ .brown ∧ s.power.phase ≠ .reconstructing ∧
       9000 = brownLevel s.store.settings) ∧
    (starting .reconstructing truck).power.phase = .reconstructing ∧
      (starting .reconstructing truck).power.level ≠ .brown := by decide +kernel

/-- The part reading a store whose regions all stand. -/
def storing : State :=
  let full : Regions :=
    { settings := some (truck.store.settings, {}), products := truck.store.products, prices := truck.store.prices
      curves := truck.store.curves, programs := some [{ number := 3, program := factoryProgram1 }]
      nodes := truck.store.nodes, stations := truck.store.stations
      route := some ({ id := 9, count := 0, unplanned := true, ceiling := none }, []) }
  { starting .reading truck with nv := { truck.nv with regions := full } }

theorem witness_StoreReadTakesUpTheRegions :
    storing.power.state = .starting ∧ storing.power.phase = .reading ∧
    (let t := after (.storeRead []) storing
     t.store.products = truck.store.products ∧ t.store.prices = truck.store.prices ∧ t.store.nodes = truck.store.nodes ∧
       t.store.programs.map Option.isSome = [true, true, false, true, false, false, false, false] ∧
       t.power.phase = .reconstructing) ∧
    (let t := after (.storeRead [.table .correction]) storing
     t.nv.regions.curves = none ∧ t.store.products = none ∧ t.store.prices = truck.store.prices) ∧
    (let u := { storing with nv := { storing.nv with regions := { storing.nv.regions with nodes := some (nodesAt .a 45) } } }
     (after (.storeRead []) u).store.nodes = none) ∧
    (let t := after (.storeRead [.settings, .table .product, .table .price, .table .stopProgram, .table .nodeMap]) storing
     t.nv.regions.settings = none ∧ t.nv.regions.products = none ∧ t.nv.regions.prices = none ∧
       t.nv.regions.programs = none ∧ t.nv.regions.nodes = none) := by
  decide +kernel

theorem witness_ReconstructionOfAnEmptyArray :
    let s := starting .reconstructing (erased truck)
    s.power.state = .starting ∧ s.power.phase = .reconstructing ∧ emptyArray s ∧ s.nv.array.length = 64 ∧
      ∀ k ∈ s.nv.array, 15 < k.slots.length := by
  refine ⟨rfl, rfl, ?_, by decide +kernel, by decide +kernel⟩
  simp only [emptyArray]
  decide +kernel

/-- The part at reconstruction, over a load, a route's opening, the skip of drop 5 and a ticket of drop `n` of product
`p`; its stored route has drops 5 and 6. -/
def recorded (routeId n p : Nat) : State :=
  let drop (n : Nat) : StagedDrop :=
    { number := n, account := text 10, product := 2, kind := .fill, preset := none, ullage := none, ceiling := none
      adjustment := none, program := none }
  let open7 : Record := recordOf 2 (.routeOpen 7 2 true none)
  let skip5 : Record := recordOf 3 (.dropNote { op := .skip, drop := 5, routeId := 7, plan := none })
  let sold : Record := { recordOf 4 (.ticket 1 { ticket with drop := n, product := p }) with ticketHigh := 1, cal := 3 }
  let s := starting .reconstructing truck
  { s with
    route := {}, comps := {}
    store := { s.store with
      routeRegion := some ({ id := routeId, count := 2, unplanned := true, ceiling := none }, [drop 5, drop 6]) }
    nv := { s.nv with
      array := { slots := [.written (recordOf 1 (.load loadBody)) true, .written open7 true, .written skip5 false,
                   .written sold false] ++ List.replicate 12 .erased } :: List.replicate 63 {} } }

/-- What reconstruction leaves: the lockout, the drops' states and volumes, compartment 2 and the calibration counter. -/
def rebuilt (s : State) : Lockout × List (DropState × Nat) × List Nat × Word16 :=
  let t := after (.reconstruction [] []) s
  (t.ctl.lockout, t.route.drops.map fun d => (d.state, d.delivered), (t.comps.list.drop 1).take 1 |>.map Comp.delivered,
    t.met.cal)

theorem witness_ReconstructionOverRecords :
    [recorded 7 6 2, recorded 8 6 2, recorded 7 9 2, recorded 7 6 3].map rebuilt =
      [(.none, [(.skipped, 0), (.partly, 1000)], [1000], 3), (.reconstruction, [], [0], 0),
        (.reconstruction, [(.skipped, 0), (.planned, 0)], [0], 0),
        (.reconstruction, [(.skipped, 0), (.partly, 1000)], [0], 0)] := by decide +kernel

theorem witness_SupplyCrossesLowAndNormal :
    truck.power.state = .on ∧ truck.power.level = .normal ∧ brownLevel truck.store.settings < 9001 ∧
      11499 < lowStep truck.store.settings ∧ 11500 = lowStep truck.store.settings ∧
      (let s := { truck with power := { truck.power with level := .low } }
       s.power.level = .low ∧ lowStep s.store.settings + hysteresis s.store.settings = 12000) := by decide +kernel

theorem witness_BrownShutsThePartDown :
    truck.power.state = .on ∧ truck.power.level ≠ .brown ∧ 9000 = brownLevel truck.store.settings ∧
      (let s := inState .flowing truck
       metering (s.ch .a).ctx.state = true ∧ (nodeOf s .a .valve).isSome) ∧
      (let s := inState .armed truck
       (s.ch .a).ctx.state = .armed ∧ counted (s.ch .a).meter = false) ∧
      truck.chA.ctx.state = .idle ∧ truck.chB.ctx.state = .idle ∧ truck.journal.waiting = [] ∧
      truck.journal.busy = .idle ∧ truck.journal.erasing = none ∧ truck.store.tableWrite = none ∧
      truck.store.settingsWrites = [] := by decide +kernel

theorem witness_IgnitionAndStandby :
    truck.power.state ≠ .shutdown ∧ truck.power.state ≠ .standby ∧
      standbyReady { truck with pins := { truck.pins with ignitionOn := false } } = true ∧
      (let s := { truck with power := { truck.power with standby := some 1 } }
       s.power.standby.isSome) ∧
      (let s := gateA (fun g => { g with outstanding := some { position := .closed, number := 2, phase := .sent, attempts := 1 } })
         { truck with power := { truck.power with state := .standby } }
       s.power.state = .standby ∧ nodeOf s .a .valve = some { address := 15, role := .valve, chan := .a, silence := 500 } ∧
         (s.ch .a).gate.outstanding = some { position := .closed, number := 2, phase := .sent, attempts := 1 }) := by
  decide +kernel

theorem witness_MetrologySwitchHandsMetrology :
    truck.power.state ≠ .shutdown ∧ truck.power.state ≠ .off ∧ truck.pins.switchOpen = false ∧
      State.reset.power.state = .off ∧ (switchOpened truck).pins.switchOpen = true := by decide +kernel

theorem witness_CheckFailuresAreCounted :
    parseFrame [0x5A] = none ∧ truck.power.state = .on ∧ addressOk 126 = true ∧ kindReply ≠ kindRequest ∧
      (List.replicate 255 (0 : Byte)).length ≤ 255 ∧
      ({ truck with power := { truck.power with state := .standby } } : State).power.state = .standby ∧
      (([11, 12, 13, 14, 15] : List Byte).map fun a => (addressOk a, (nodeAt truck a).map NodeEntry.role)) =
        [(true, some .tally), (true, some .probe), (true, some .vapour), (true, some .reel), (true, some .valve)] ∧
      (0#16).toNat = 0 ∧ 5000 < (5001#16).toNat ∧ 2 < (3 : Byte).toNat ∧
      (let f : Frame := { dst := 15, src := 30, kind := 0x21, seq := 1, payload := [3, 0] }
       frameOk f = true ∧ (nodeAt truck f.dst).map NodeEntry.role = some .valve) ∧
      (let f : Frame := { dst := 0, src := 30, kind := 0x41, seq := 1, payload := [] }
       frameOk f = true ∧ (stationClass truck f.src).isSome) := by
  decide +kernel

theorem test_form_check_of_a_tally :
    (after (.tally 127 11 8 0 0 5001) truck).line.fcnt.check = 1 ∧
      (after (.tally 127 11 8 0 0 5000) truck).line.fcnt.check = 0 := by decide +kernel

theorem witness_StrayFrameDroppedAndCounted :
    truck.power.state = .on ∧ addressOk 12 = true ∧ addressOk 126 = true ∧ nodeAt truck 126 = none ∧
      nodeAt truck 12 = some { address := 12, role := .probe, chan := .a, silence := 500 } ∧
      nodeAt truck 11 = some { address := 11, role := .tally, chan := .a, silence := 500 } := by decide +kernel

/-- Raw echo ON. -/
def echoing (s : State) : State := { s with store := { s.store with settings := { s.store.settings with rawEcho := true } } }

/-- The C-bound queue with its common places taken. -/
def crowded (s : State) : State :=
  { s with line := { s.line with cline := some (.fwd through)
                                 cq := List.replicate 14 { frame := .fwd through, reserved := false } } }

theorem witness_ThroughFramesAreForwardedOrCounted :
    truck.power.state = .on ∧ frameOk through = true ∧ through.kind ≠ 0x11 ∧ commonUsed truck.line = 0 ∧
      14 ≤ commonUsed (crowded truck).line ∧
      (let l : Line := { fq := List.replicate 6 (.fwd through) }
       6 ≤ (l.fq.filter isForward).length) ∧
      nodeAt truck 90 = none ∧ frameOk { through with kind := 0x21 } = true ∧
      (echoing truck).store.settings.rawEcho = true ∧ (nodeAt (echoing truck) 11).map NodeEntry.role = some .tally ∧
      1 ≤ (1#16).toNat ∧ (5000#16).toNat ≤ 5000 ∧ Roomy (echoing (inState .flowing truck)) ∧
      ((crowded (echoing truck)).ch .a).ctx.state = .idle ∧
      (after (.probe 127 12 9 150 0) (crowded (echoing truck))).line.fcnt.dropped = 1 :=
  ⟨rfl, by decide +kernel, by decide, by decide +kernel, by decide +kernel, by decide +kernel, by decide +kernel,
   by decide +kernel, rfl, by decide +kernel, by decide, by decide, roomy (by decide +kernel), rfl, by decide +kernel⟩

theorem witness_ThroughFramesAreForwardedOrCounted_standby :
    let s := { truck with power := { truck.power with state := .standby } }
    let order : Frame := { through with kind := 0x21 }
    s.power.state = .standby ∧ through.dst ≠ 0 ∧ order.dst ≠ 0 ∧ nodeAt truck order.dst = none ∧
      (after (.throughFrame .c order) truck).line.ccnt.valveOrders = 1 := by decide +kernel

theorem witness_TalliesOutsideATicketAndJumps :
    addressOk 11 = true ∧ nodeAt truck 11 = some { address := 11, role := .tally, chan := .a, silence := 500 } ∧
      1 ≤ (1#16).toNat ∧ (5000#16).toNat ≤ 5000 ∧ (starting .reading truck).power.state = .starting ∧
      truck.power.state = .on ∧ (truck.ch .a).meter.baseline = none ∧
      (let s := inState .flowing truck
       (s.ch .a).meter.baseline = some { fwd := 100, rev := 0, seq := 7 } ∧ metering (s.ch .a).ctx.state = true ∧
         (s.ch .a).meter.firstTally = false ∧ s.store.metset.jumpLimit = 1500 ∧
         ((1600#16) - 100).toNat = 1500 ∧ ((1601#16) - 100).toNat = 1501) ∧
      (let s := meterA (fun m => { m with firstTally := true }) (inState .armed truck)
       metering (s.ch .a).ctx.state = true ∧ (s.ch .a).meter.firstTally = true) ∧
      (let s := meterA (fun m => { m with baseline := some { fwd := 100, rev := 0, seq := 7 } }) truck
       metering (s.ch .a).ctx.state = false ∧ (s.ch .a).meter.baseline.isSome) := by decide +kernel

theorem witness_TalliesOfATicketAreSummed :
    (let s := inState .flowing truck
     addressOk 11 = true ∧ nodeAt s 11 = some { address := 11, role := .tally, chan := .a, silence := 500 } ∧
       s.power.state = .on ∧ (s.ch .a).meter.baseline = some { fwd := 100, rev := 0, seq := 7 } ∧
       metering (s.ch .a).ctx.state = true ∧ (s.ch .a).meter.firstTally = false ∧
       ((1600#16) - 100).toNat ≤ s.store.metset.jumpLimit) ∧
    ([CtxState.armed, .paused, .held, .settling].all fun st => metering ((inState st truck).ch .a).ctx.state) = true ∧
    (let s := inState .paused truck
     let t := after (.tally 127 11 8 151 0 500) s
     s.store.settings.creepLimit = 50 ∧ t.chA.ctx.state = .held ∧ t.chA.ctx.causes = [.creep] ∧
       (after (.tally 127 11 8 150 0 500) s).chA.ctx.state = .paused) ∧
    (let s := meterA (fun m => { m with probe := none }) (inState .flowing truck)
     let t := after (.tally 127 11 8 101 201 500) s
     s.store.metset.reverseLimit = 200 ∧ t.chA.ctx.causes = [.tally, .probe] ∧ t.chA.ctx.primary = some .tally) ∧
    (let t := after (.tally 127 11 8 100 201 500) (inState .held truck)
     t.chA.ctx.causes = [.tally, .air] ∧ t.chA.ctx.rest = some 1500) := by decide +kernel

/-- A stop program of two watch points. -/
def watching (a b : Watch) (m : ProgramMode) (s : State) : State :=
  { s with store := { s.store with programs := s.store.programs.set 1 (some { watchA := a, watchB := b, mode := m }) } }

def watch (q : Quantity) (r : Relation) (v p : Nat) (a : Action) : Watch :=
  { quantity := q, relation := r, reference := .absolute, value := v, persistence := p, action := a }

/-- What a stop monitor's two watch points did at an evaluation. -/
def judged (a b : Watch) (m : ProgramMode) (k : Monitor) : Bool × Bool × Bool × Nat × Nat :=
  let j := judge { watchA := a, watchB := b, mode := m } k { gross := 300, net := 300, rate := 30, amount := 300 } 5000
  (j.firesA, j.actsA, j.firesB, j.countA, j.countB)

theorem witness_NoTallyLeavesAFlowBeyondItsAuthorisation :
    (let s := meterA (fun m => { m with fwd := 4000 }) (inState .flowing truck)
     (s.ch .a).meter.baseline = some { fwd := 100, rev := 0, seq := 7 } ∧ (s.ch .a).meter.probe.isSome ∧
       ((1099#16) - 100).toNat ≤ s.store.metset.jumpLimit ∧ (s.ch .a).meter.rev ≤ s.store.metset.reverseLimit ∧
       (after (.tally 127 11 8 1099 0 1000) s).chA.ctx.state = .flowing ∧
       liveFigure (after (.tally 127 11 8 1099 0 1000) s) .a = 4999 ∧
       (after (.tally 127 11 8 1100 0 1000) s).chA.ctx.state = .settling) ∧
    (let a := watch .net .atOrAbove 300 0 .hold
     let b := watch .rate .below 31 1 .endDelivery
     [judged a b .independent {}, judged a b .independent { tallies := 5, countB := 1 },
       judged { a with value := 301 } b .sequence { tallies := 5, countB := 1 },
       judged a b .joint { tallies := 5, countA := 9, countB := 255 },
       judged { a with persistence := 255 } b .joint { tallies := 4, countA := 254 }] =
     [(true, true, false, 1, 0), (true, true, true, 1, 2), (false, false, false, 0, 1), (true, false, true, 10, 256),
       (false, false, false, 255, 0)]) ∧
    (let s := inState .flowing truck
     let note := watch .net .atOrAbove 0 0 .note
     let run (a b : Action) : CtxState × Bool :=
       let t := after (.tally 127 11 8 101 0 1000)
         (watching { note with action := a } { note with action := b } .independent s)
       (t.chA.ctx.state, t.chA.gate.limited)
     [run .note .slow, run .close .hold, run .note .endDelivery] =
       [(.flowing, true), (.held, false), (.settling, false)]) ∧
    (let s := gateA (fun g => { g with position := .slow, requested := some .full }) (inState .flowing truck)
     (after (.tally 127 11 8 101 0 1000) s).chA.gate.position = .full) ∧
    ((proving (inState .flowing truck)).ch .a).ctx.mode = .proving ∧
    (((inState .flowing truck).ch .a).monitor.program.bind (programOf (inState .flowing truck))).isSome := by
  decide +kernel

theorem witness_ReadingsAndContactsAreTaken :
    truck.power.state = .on ∧ addressOk 12 = true ∧ addressOk 13 = true ∧ addressOk 14 = true ∧
      nodeAt truck 12 = some { address := 12, role := .probe, chan := .a, silence := 500 } ∧
      nodeAt truck 13 = some { address := 13, role := .vapour, chan := .a, silence := 500 } ∧
      nodeAt truck 14 = some { address := 14, role := .reel, chan := .a, silence := 500 } ∧
      (BitVec.ofInt 16 (-400)).toInt = -400 ∧ (600#16).toInt = 600 ∧ (BitVec.ofInt 16 (-401)).toInt < -400 ∧
      600 < (601#16).toInt ∧ ((inState .flowing truck).ch .a).ctx.state = .flowing := by decide +kernel

theorem witness_ValveAnswersAreJudged :
    let s := gateA (fun g => { g with position := .full, outstanding := some { position := .full, number := 2, phase := .sent, attempts := 1 } })
      (inState .flowing truck)
    nodeAt s 15 = some { address := 15, role := .valve, chan := .a, silence := 500 } ∧ posOf 2 = some .full ∧
      posOf 0 = some .closed ∧ (s.ch .a).gate.position = .full ∧
      (s.ch .a).gate.outstanding = some { position := .full, number := 2, phase := .sent, attempts := 1 } ∧
      (truck.ch .a).gate.outstanding = none := by decide +kernel

theorem witness_CabClosedOrders :
    (inState .flowing truck).ctl.lockout = .none ∧ (15 : Byte) ≠ 0 ∧ (15 : Byte).toNat ≤ 127 ∧
      nodeAt (inState .flowing truck) 15 = some { address := 15, role := .valve, chan := .a, silence := 500 } ∧
      ((inState .flowing truck).ch .a).ctx.state = .flowing ∧ Roomy (inState .flowing truck) ∧
      (truck.ch .a).ctx.state ≠ .flowing ∧ AnswerRoom truck :=
  ⟨rfl, by decide, by decide, by decide +kernel, rfl, roomy (by decide +kernel), by decide +kernel,
   .inl (by decide +kernel)⟩

theorem witness_CabStartsAndChanges :
    let s := inState .paused truck
    let f := gateA (fun g => { g with position := .slow }) (inState .flowing truck)
    nodeAt s 15 = some { address := 15, role := .valve, chan := .a, silence := 500 } ∧ s.req.restart = none ∧
      ((inState .armed truck).ch .a).ctx.state = .armed ∧ (s.ch .a).ctx.state = .paused ∧ (s.ch .a).meter.reel = .out ∧
      (s.ch .a).monitor.guard = false ∧
      (ctxA (fun x => { x with episodes := List.replicate 7 { startNet := 0 } }) s).chA.ctx.episodes.length < 8 ∧
      Roomy s ∧ (f.ch .a).ctx.state = .flowing ∧ (f.ch .a).gate.position = .slow ∧ (f.ch .a).gate.limited = false ∧
      startSlow f .a ≤ liveNet f .a ∧ ((proving f).ch .a).ctx.mode = .proving :=
  ⟨by decide +kernel, rfl, rfl, rfl, rfl, rfl, by decide +kernel, roomy (by decide +kernel), by decide +kernel⟩

/-- Three litres of net stand on the meter: they lie below a start-slow volume of 4 litres, and not below one of 3. -/
theorem witness_CabStartsAndChanges_position :
    let s (litres : Nat) := { inState .paused truck with
      store := { truck.store with products := some [{ product2 with startSlow := litres }] } }
    liveNet (s 3) .a = 300 ∧ ([3, 4].map fun n => startPosition (s n) .a .full) = [.full, .slow] ∧
      startPosition (s 3) .a .slow = .slow ∧ startPosition (gateA (fun g => { g with limited := true }) (s 3)) .a .full = .slow ∧
      startPosition (proving (s 4)) .a .full = .full := by decide +kernel

theorem witness_CabOrdersRefused :
    let s := inState .paused truck
    nodeAt s 15 = some { address := 15, role := .valve, chan := .a, silence := 500 } ∧ AnswerRoom s ∧
      (starting .reading s).power.state = .starting ∧ (locked .storage s).ctl.lockout ≠ .none ∧
      ({ s with req := { s.req with restart := some false } } : State).req.restart.isSome ∧
      (truck.ch .a).ctx.state = .idle ∧ ((inState .settling truck).ch .a).ctx.state = .settling ∧
      ((inState .held truck).ch .a).ctx.state = .held ∧ ((inState .closing truck).ch .a).ctx.state = .closing ∧
      ((inState .faulted truck).ch .a).ctx.state = .faulted ∧
      (meterA (fun m => { m with reel := .stowed }) s).chA.meter.reel ≠ .out ∧
      (onA (fun x => { x with monitor := { x.monitor with guard := true } }) s).chA.monitor.guard = true ∧
      8 ≤ (ctxA (fun x => { x with episodes := List.replicate 8 { startNet := 0 } }) s).chA.ctx.episodes.length := by
  refine ⟨by decide +kernel, .inl (by decide +kernel), ?_⟩
  decide +kernel

theorem witness_MissedOrdersAreResentAndHeld :
    let sent (n : Nat) (p : Pos) := gateA (fun g => { g with
      timer := true, position := p, outstanding := some { position := p, number := 2, phase := .sent, attempts := n } }) truck
    (sent 1 .closed).power.state = .on ∧ ((sent 1 .closed).ch .a).gate.timer = true ∧
      ((sent 1 .closed).ch .a).gate.outstanding = some { position := .closed, number := 2, phase := .sent, attempts := 1 } ∧
      nodeOf (sent 1 .closed) .a .valve = some { address := 15, role := .valve, chan := .a, silence := 500 } ∧
      ((sent 2 .closed).ch .a).gate.outstanding = some { position := .closed, number := 2, phase := .sent, attempts := 2 } ∧
      ((sent 2 .full).ch .a).gate.outstanding = some { position := .full, number := 2, phase := .sent, attempts := 2 } ∧
      (truck.ch .a).gate.timer = false := by decide +kernel

theorem witness_FTransmitterEndsAndStartsTheNext :
    let order (p : Pos) : FFrame := .order .a 15 0 p 2
    let s := gateA (fun g => { g with outstanding := some { position := .closed, number := 2, phase := .queued, attempts := 1 } })
      { truck with line := { truck.line with fline := some (order .closed), fq := [.fwd through, .order .b 25 1 .closed 3] } }
    s.power.state = .on ∧ s.line.fline = some (.order .a 15 0 .closed 2) ∧
      (s.ch .a).gate.outstanding = some { position := .closed, number := 2, phase := .queued, attempts := 1 } ∧
      s.line.fq = [.fwd through] ++ .order .b 25 1 .closed 3 :: [] ∧ isClosedOrder (.order .b 25 1 .closed 3) = true ∧
      (∀ g ∈ [FFrame.fwd through], isClosedOrder g = false) ∧ truck.line.fline = none ∧
      ({ truck with line := { truck.line with fline := some (.fwd through) } } : State).line.fline = some (.fwd through) := by
  decide +kernel

/-- The C transmitter at a frame, a place of the queue to come free, and three frames waiting. -/
def handing (reserved : Bool) : State :=
  let printed : Print := { chan := .a, dst := 50, record := recordOf 2 (.ticket 1 ticket), copy := false, name := text 12 }
  let r : Reply := { dst := 30, seq := 4, code := 0x60, refusal := none, result := .nothing }
  { asking 30 0x60 truck with line := { truck.line with
      cline := some (.fwd through)
      cq := { frame := .fwd through, reserved := reserved } :: List.replicate 13 { frame := .fwd through, reserved := false }
      cwait := [.print 3 printed, .reply r, .fwd through] } }

theorem witness_CTransmitterEndsAndHandsThePlace :
    (handing true).power.state = .on ∧ (handing true).line.cline = some (.fwd through) ∧
      (handing true).req.restart = none ∧
      (∀ f ∈ (handing true).line.cwait.take 1, isAnswerFrame f = false) ∧
      ((handing true).line.cwait.drop 1).head?.map isAnswerFrame = some true ∧
      ((handing true).ch .a).heldPrint = none ∧ truck.line.cq = [] ∧
      (let t := after .cTransmitEnd (handing false)
       t.line.cq.length = 14 ∧ t.line.cq.getLast?.map (fun e => isPrintOf .a e.frame) = some true ∧
         t.line.cwait.length = 2 ∧ t.req.inProgress.length = 1) ∧
      (let t := after .cTransmitEnd (handing true)
       t.line.cq.getLast?.map (fun e => (e.reserved, isAnswerFrame e.frame)) = some (true, true) ∧
         t.line.cwait.map isAnswerFrame = [false, false] ∧ t.req.inProgress = []) ∧
      (let s := { handing true with line := { (handing true).line with cwait := [.fwd through] } }
       (after .cTransmitEnd s).line.cq.length = 13 ∧ (after .cTransmitEnd s).line.cwait = [.fwd through]) := by
  decide +kernel

theorem witness_NodeAndNoticeTimersExpire :
    let s := meterA (fun m => { m with noticeTimer := true, noticePending := true }) (inState .flowing truck)
    s.power.state = .on ∧ runsSilence (s.ch .a) 11 = true ∧ runsSilence (s.ch .b) 11 = false ∧
      runsSilence (s.ch .a) 126 = false ∧ (s.ch .a).meter.stale = .running ∧ (s.ch .b).meter.stale ≠ .running ∧
      (s.ch .a).meter.noticeTimer = true ∧ (s.ch .a).meter.noticePending = true ∧ s.store.settings.cab ≠ 0 ∧
      (∀ f ∈ s.line.cwait, isNoticeOf .a f = false) ∧ commonUsed s.line < 14 ∧
      (meterA (fun m => { m with noticePending := false }) s).chA.meter.noticePending = false := by decide +kernel

theorem witness_NodeAndNoticeTimersExpire_values :
    let figures (s : State) := (noticeOf s .a).gross + (noticeOf s .a).remaining
    let p := provingClose true (inState .closing truck)
    (truck.ch .a).ctx.state = .idle ∧ figures truck = 0 ∧ metering (inState .flowing truck).chA.ctx.state = true ∧
      figures (inState .flowing truck) = 5000 ∧ (inState .closing truck).chA.ctx.pending = some (.ticket ticket) ∧
      figures (inState .closing truck) = 5000 ∧ p.chA.ctx.pending = some (.proving run true) ∧ figures p = 100 ∧
      (inState .held truck).chA.ctx.state = .held := by decide +kernel

theorem witness_SettlingEnds :
    let s := inState .settling truck
    s.power.state ≠ .shutdown ∧ (s.ch .a).ctx.state = .settling ∧ (s.ch .a).ctx.quiet = some 1500 ∧
      (s.ch .a).ctx.limit = some 10 ∧ (s.ch .a).ctx.autoClose = false ∧
      (ctxA (fun x => { x with autoClose := true }) s).chA.ctx.autoClose = true := by decide +kernel

/-- The bodies of management appends. -/
def noteOf (op : NoteOp) (n : Nat) : NoteBody := { op := op, drop := n, routeId := 7, plan := none }
def auditOf (c : Change) (k : AuditCounter) : AuditBody :=
  { change := c, counter := k, station := 40, old := .setting 10000, new := .setting 10032, provingSeq := 0, observed := 0
    committed := 0 }
def closeBody : RouteCloseBody := { routeId := 7, totals := [], counts := ⟨0, 0, 0, 0, 0⟩ }

def waiting (a : Append) (s : State) : State := { s with journal := { s.journal with waiting := [a] } }
def noBlocks (s : State) : State :=
  { s with journal := { s.journal with blocks := List.replicate 64 { state := .filled, erases := 0, writePoint := 0 } } }

/-- The header of the record that the arbiter begins to program. -/
def headerOf (s : State) : Option (Nat × Nat × Word16 × Word16) :=
  match (after .arbiterTake s).journal.busy with
  | .programming _ r _ _ _ => some (r.seq, r.ticketHigh, r.cal, r.cfg)
  | _ => none

theorem witness_ArbiterTakesTheOldestAppend :
    let m (b : Body) := waiting (.manage 40 b) (asking 40 0x48 truck)
    let c := waiting (.close .a) (inState .closing truck)
    (truck.power.state = .on ∧ truck.journal.busy = .idle ∧ truck.journal.erasing = none ∧ truck.journal.reads = [] ∧
       8 ≤ freeSlots truck ∧ nextSlot truck = some (0, 2) ∧ (c.ch .a).ctx.pending = some (.ticket ticket) ∧
       ((provingClose true c).ch .a).ctx.pending = some (.proving run true) ∧ freeSlots (noBlocks truck) < 8 ∧
       nextSlot (noBlocks c) = none ∧ (c.ch .a).ctx.state = .closing ∧ anyFaulted c = false ∧ c.ctl.clearing = none) ∧
    [headerOf (m (.load loadBody)), headerOf (m (.audit (auditOf .correction .calibration))),
      headerOf (m (.audit (auditOf .nodeMap .configuration))), headerOf c, headerOf (provingClose true c),
      headerOf (noBlocks (m (.load loadBody)))] =
      [some (3, 1, 0, 0), some (3, 1, 1, 0), some (3, 1, 0, 1), some (3, 2, 0, 0), some (3, 1, 0, 0), none] ∧
    (let s := { m (.audit (auditOf .lockoutClear .configuration)) with
       journal := { (m (.audit (auditOf .lockoutClear .configuration))).journal with newestSeq := 4294967280 } }
     (headerOf s).map (fun h => h.1) = some 4294967281) ∧
    ((let s := { c with journal := { c.journal with newestSeq := 4294967295 } }
      nextSlot s = some (0, 2) ∧ 4294967295 ≤ s.journal.newestSeq ∧ anyFaulted s = false) ∧
     (let s := { c with journal := { c.journal with newestTicket := 99999999 } }
      nextSlot s = some (0, 2) ∧ s.journal.newestSeq < 4294967295 ∧ headerOf s = none)) ∧
    (let t := after .arbiterTake (noBlocks (m (.dropNote (noteOf .skip 27))))
     t.req.inProgress = [] ∧ t.journal.waiting = []) ∧
    (let t := after .arbiterTake (waiting (.mark 2) truck)
     t.journal.busy = .marking 2 0 1 false) ∧
    (let s := waiting (.mark 5) { asking 40 0x41 truck with
       journal := { truck.journal with release := some { station := 40, target := 1, marked := 0, memory := 0 } } }
     indexOf s 5 = none ∧ (∀ e ∈ s.journal.index, e.seq ≤ 1 → drainedEntry s.journal e = true) ∧
       (after .arbiterTake s).journal.release = none) := by
  decide +kernel

/-- The current block's slot; of two erased blocks the one less often erased, of two equals the lower; no block. -/
theorem witness_ArbiterTakesTheOldestAppend_slot :
    let s (counts : List Nat) := { truck with journal := { truck.journal with
      blocks := { state := .filled, erases := 0, writePoint := 16 } ::
        counts.map fun n => { state := .erased, erases := n, writePoint := 0 } } }
    nextSlot truck = some (0, 2) ∧ freshBlock (s [5, 4]) = some 2 ∧ freshBlock (s [4, 4]) = some 1 ∧
      nextSlot (s [5, 4]) = some (2, 0) ∧ nextSlot (s []) = none := by decide +kernel

theorem witness_TicketCommitTakesEffect :
    let s := asking 30 0x11 (programming (.close .a) (.ticket 2 ticket) false (inState .closing truck))
    let full := { crowded s with line := { (crowded s).line with
      cwait := [.print 3 { chan := .a, dst := 50, record := recordOf 2 (.ticket 1 ticket), copy := false, name := text 12 }] } }
    s.power.state = .on ∧ s.journal.busy = .programming (.close .a) (recordOf 3 (.ticket 2 ticket)) 0 2 false ∧
      s.ctl.clearing = none ∧ (s.ch .a).ctx.requester = some 30 ∧
      s.req.inProgress.find? (fun q => q.station = 30) = some { station := 30, code := 0x11, seq := 9, cls := .office } ∧
      Roomy s ∧ s.store.settings.printer ≠ 0 ∧ 14 ≤ commonUsed full.line ∧ full.line.cline.isSome ∧
      (∃ f ∈ full.line.cwait, isPrintOf .a f = true) ∧
      ((after (.recordProgramEnd true .written { lost := [], markOk := true }) full).ch .a).heldPrint.isSome :=
  ⟨rfl, rfl, rfl, rfl, by decide +kernel, roomy (by decide +kernel), by decide +kernel⟩

/-- What the commit of a record in a slot leaves of the journal. -/
theorem test_commit_in_the_journal :
    let j (slot : Nat) (b : Body) := (commitRecord (recordOf 3 b) 0 slot truck).journal
    ((j 2 (.load loadBody)).blocks.map BlockInfo.writePoint).head? = some 3 ∧
      ((j 15 (.load loadBody)).blocks.map BlockInfo.state).head? = some .filled ∧
      (j 2 (.load loadBody)).compAnchors = [none, some 3, none, none] ∧
      (j 2 (.routeOpen 7 0 true none)).routeAnchor = some 3 ∧ (j 2 (.load loadBody)).newestSeq = 3 := by decide +kernel

theorem witness_OtherCommitsTakeEffect :
    let s (st : Byte) (b : Body) := asking st 0x24 (programming (.manage st b) b false truck)
    let t (st : Byte) (b : Body) := after (.recordProgramEnd true .written { lost := [], markOk := true }) (s st b)
    let add : NoteBody := { op := .add, drop := 77, routeId := 7, plan := some (planFor 77) }
    let h : RouteHeader := { id := 9, count := 0, unplanned := true, ceiling := none }
    let opening := held (.activating (loadOf 40 .route 1 [.header h])) (s 40 (.routeOpen 9 0 true none))
    truck.power.state = .on ∧ Roomy (s 30 (.load loadBody)) ∧
      (s 30 (.load loadBody)).journal.busy = .programming (.manage 30 (.load loadBody)) (recordOf 3 (.load loadBody)) 0 2 false ∧
      dropOf truck 27 = some { plan := planFor 27, position := 1 } ∧ dropOf truck 77 = none ∧
      truck.route.header.isSome ∧ truck.comps.list[2 - 1]?.isSome ∧
      tableOf .route [.header h] = some (.route h []) ∧ opening.store.staging = .activating (loadOf 40 .route 1 [.header h]) ∧
      (t 30 (.dropNote (noteOf .skip 27))).route.drops.map Drop.state = [.skipped, .partly, .skipped] ∧
      (t 30 (.dropNote (noteOf .restore 29))).route.drops.map Drop.state = [.planned, .partly, .planned] ∧
      (t 40 (.dropNote (noteOf .cancel 27))).route.drops.map Drop.state = [.cancelled, .partly, .skipped] ∧
      (t 40 (.dropNote add)).route.drops.length = 4 ∧ (t 40 (.load loadBody)).comps.list[1]?.map Comp.delivered = some 0 ∧
      (t 40 (.routeClose closeBody)).route.state = .none ∧
      (after (.recordProgramEnd true .written { lost := [], markOk := true }) opening).store.staging = .empty ∧
      (t 40 (.audit (auditOf (.setting .factorA) .calibration))).store.settingsWrites.length = 1 ∧
      (t 40 (.audit (auditOf .station .configuration))).store.tableWrite = some { station := 40, audit := some (3, 0) } ∧
      (let p (sound : Bool) := programming (.close .a) (.proving run) false (provingClose sound (inState .closing truck))
       (p true).ctl.clearing = none ∧ pendingSound (p true) .a = true ∧ pendingSound (p false) .a = false) ∧
      (let x := { s 40 (.load loadBody) with
         power := { truck.power with state := .shutdown }
         journal := { (s 40 (.load loadBody)).journal with waiting := [.close .a] } }
       x.power.state = .shutdown ∧ x.journal.waiting ≠ []) :=
  ⟨rfl, roomy (by decide +kernel), by decide +kernel⟩

theorem witness_FailedProgramsRetireRetryAndFault :
    let s (retry : Bool) := programming (.close .a) (.ticket 2 ticket) retry (inState .closing truck)
    let two := { s true with chB := { (inState .faulted truck).chA with heldPrint := none } }
    (s false).power.state = .on ∧ 0 < (s false).journal.blocks.length ∧
      freshBlock (retire 0 .program (some 2) { lost := [], markOk := true }
        (setSlot 0 2 (leftSlot (recordOf 3 (.ticket 2 ticket)) .unreadable) (s false))) = some 1 ∧
      ((s true).ch .a).ctx.state = .closing ∧ anyFaulted (s true) = false ∧ anyFaulted two = true ∧
      two.ctl.lockout = .none ∧ (two.ch .a).ctx.state = .closing := by decide +kernel

theorem witness_FailedProgramsRetireRetryAndFault_owners :
    let entry (st code : Byte) : InProgress := { station := st, code := code, seq := 9, cls := .office }
    let c := asking 30 0x11 (programming (.close .a) (.ticket 2 ticket) true (inState .closing truck))
    let f := programming (.close .a) (.ticket 2 ticket) true
      (asking 30 0x13 (ctxA (fun x => { x with requester := some 30, retryMark := true }) (inState .faulted truck)))
    let m (b : Body) (s : State) := programming (.manage 40 b) b true (asking 40 0x48 s)
    let l := loadOf 40 .correction 0 []
    let failed (s : State) := after (.recordProgramEnd false .unreadable { lost := [], markOk := true }) s
    AnswerRoom f ∧ AnswerRoom (m (.load loadBody) truck) ∧
    (c.ctl.clearing = none ∧ (c.ch .a).ctx.requester = some 30 ∧ c.req.inProgress.find? (fun q => q.station = 30) =
        some (entry 30 0x11) ∧ commonUsed c.line + 4 ≤ 14 ∧ c.line.cwait = []) ∧
    ((f.ch .a).ctx.state = .faulted ∧ f.ctl.lockout = .none ∧ f.ctl.clearing = none ∧ (f.ch .a).ctx.requester = some 30 ∧
      (failed f).ctl.lockout = .storage ∧ (failed f).chA.ctx.retryMark = false) ∧
    (anyFaulted (m (.load loadBody) truck) = false ∧ anyFaulted (m (.load loadBody) (inState .faulted truck)) = true ∧
      (failed (m (.load loadBody) (inState .faulted truck))).ctl.lockout = .storage ∧
      (failed (m (.routeOpen 9 0 true none) (held (.activating l) truck))).store.staging = .filling l ∧
      (failed (m (.dropNote (noteOf .skip 27)) truck)).req.inProgress = []) :=
  ⟨.inl (by decide +kernel), .inl (by decide +kernel), by decide +kernel⟩

theorem witness_MarksAndErases :
    let m (second : Bool) := { truck with journal := { truck.journal with busy := .marking 2 0 1 second } }
    let e := { truck with
      journal := { truck.journal with
        blocks := truck.journal.blocks.modify 0 fun _ => { state := .filled, erases := 3, writePoint := 0 }
        index := truck.journal.index.map fun x => { x with drained := true }, newestSeq := 9
        compAnchors := [none, some 9, none, none] }
      nv := { truck.nv with
        array := truck.nv.array.modify 0 fun k =>
          { k with slots := .written (recordOf 2 (.ticket 1 ticket)) true :: List.replicate 15 .erased } } }
    (m false).journal.busy = .marking 2 0 1 false ∧ truck.journal.erasing = none ∧ eraseReady e = true ∧
      eraseChoice e = some 0 ∧ (after .eraseStart e).journal.erasing = some 0 ∧
      (let x := { truck with journal := { truck.journal with erasing := some 0 } }
       x.journal.blocks[0]? = some { state := .current, erases := 0, writePoint := 2 } ∧ x.req.restart = none) := by
  decide +kernel

theorem witness_MarksAndErases_second :
    let m := { truck with journal := { truck.journal with busy := .marking 2 0 1 true } }
    m.journal.busy = .marking 2 0 1 true ∧ 0 < m.journal.blocks.length ∧
      blockState (after (.drainedMarkEnd false { lost := [], markOk := true }) m) 0 = .retired := by decide +kernel

/-- A record whose slot has become unreadable still keeps its block while it is the newest one (R176, R178). -/
theorem test_unreadable_newest_record_keeps_its_block :
    let e (newest : Nat) := { truck with
      journal := { truck.journal with
        blocks := truck.journal.blocks.modify 0 fun _ => { state := .filled, erases := 3, writePoint := 0 }
        index := truck.journal.index.map fun x => { x with drained := true }, newestSeq := newest
        compAnchors := [none, some 9, none, none] }
      nv := { truck.nv with array := truck.nv.array.modify 0 fun k => { k with slots := k.slots.set 1 .unreadable } } }
    eraseChoice (e 2) = none ∧ eraseChoice (e 9) = some 0 := by decide +kernel

/-- An AUDIT record that commits in SHUTDOWN raises its counter (R189, R190). -/
theorem test_audit_in_shutdown_raises_its_counter :
    let s := programming (.manage 40 (.audit (auditOf .correction .calibration))) (.audit (auditOf .correction .calibration))
      false (inState .closing truck)
    let u := { s with
      power := { s.power with state := .shutdown, budget := 3 }
      journal := { s.journal with
        waiting := [.close .a]
        busy := .programming (.manage 40 (.audit (auditOf .correction .calibration)))
          { recordOf 3 (.audit (auditOf .correction .calibration)) with cal := 1 } 0 2 false } }
    (after (.recordProgramEnd true .written { lost := [], markOk := true }) u).met.cal = 1 := by decide +kernel

/-- CLEAR LOCKOUT's AUDIT record ends the lockout at its commit, in SHUTDOWN too (R152, R189). -/
theorem test_lockout_ends_in_shutdown :
    let b := auditOf .lockoutClear .configuration
    let s := locked .storage (programming (.manage 40 (.audit b)) (.audit b) false (inState .closing truck))
    let u := { s with
      power := { s.power with state := .shutdown, budget := 3 }, journal := { s.journal with waiting := [.close .a] } }
    (after (.recordProgramEnd true .written { lost := [], markOk := true }) u).ctl.lockout = .none := by decide +kernel

/-- Without a number left a close fails, and the erased block that step 1 took is CURRENT (R172). -/
theorem test_no_number_left_takes_the_block :
    let s := waiting (.close .a) (inState .closing truck)
    let j := { s.journal with newestSeq := 4294967295, blocks := List.replicate 64 { state := .erased, erases := 0, writePoint := 0 } }
    let t := after .arbiterTake { s with journal := j }
    nextSlot { s with journal := j } = some (0, 0) ∧ blockState t 0 = .current ∧ t.chA.ctx.state = .faulted := by decide +kernel

/-- A settings write at its end, and a table's write at its end, both asked for by station 40. -/
def settingsEnd (c : SettingChange) (s : State) : State :=
  asking 40 0x34 { s with store := { s.store with
    settingsWrites := [{ station := 40, change := c, audit := none, factor := true }] } }
def tableEnd (k : TableKind) (es : List Entry) (s : State) : State :=
  asking 40 0x32 { s with store := { s.store with
    staging := .activating (loadOf 40 k es.length es), tableWrite := some { station := 40, audit := some (3, 1) } } }

theorem witness_StoreWritesTakeEffect :
    let level (c : SettingChange) (mv : Nat) (l : SupplyLevel) :=
      { settingsEnd c truck with pins := { truck.pins with voltage := mv }, power := { truck.power with level := l } }
    let written (k : TableKind) (es : List Entry) := after (.storeWriteEnd (.table k) true) (tableEnd k es truck)
    let failed (k : TableKind) (es : List Entry) := after (.storeWriteEnd (.table k) false) (tableEnd k es truck)
    let list : PriceList := { code := 2, tiers := tiers2 }
    let curve : Curve := { number := 0, factors := List.replicate 16 9999 }
    let program : ProgramEntry := { number := 3, program := factoryProgram1 }
    let map := (nodesAt .a 10 ++ nodesAt .b 60).map Entry.nodeMap
    let h : RouteHeader := { id := 9, count := 0, unplanned := true, ceiling := none }
    AnswerRoom (settingsEnd (.office .creepLimit 77) truck) ∧
    (settingsEnd (.office .creepLimit 77) truck).req.inProgress.find? (fun q => q.station = 40) =
      some { station := 40, code := 0x34, seq := 9, cls := .office } ∧
    (after (.storeWriteEnd .settings true) (settingsEnd (.office .creepLimit 77) truck)).store.settings.creepLimit = 77 ∧
    (after (.storeWriteEnd .settings true) (settingsEnd (.metrology .factorA 10032) truck)).store.metset.factorA = 10032 ∧
    (after (.storeWriteEnd .settings true) (level (.office .lowLevel 4) 12000 .normal)).power.level = .low ∧
    (after (.storeWriteEnd .settings true) (level (.office .lowLevel 1) 12800 .low)).power.level = .normal ∧
    (after (.storeWriteEnd .settings false) (settingsEnd (.office .creepLimit 77) truck)).nv.regions.settings = none ∧
    (written .product [.product product2]).store.products = some [product2] ∧
    (written .price [.price list]).store.prices = some [list] ∧
    (written .correction [.correction curve]).store.curves = some [curve] ∧
    (written .stopProgram [.stopProgram program]).store.programs.map Option.isSome =
      [true, true, false, true, false, false, false, false] ∧
    (written .station [.station { address := 120, cls := .metrology }]).store.stations =
      some [{ address := 120, cls := .metrology }] ∧
    (let s := tableEnd .nodeMap map (meterA (fun m => { m with baseline := some { fwd := 1, rev := 1, seq := 1 }, reel := .out }) truck)
     let b := { s with chB := { s.chB with meter := s.chA.meter } }
     let t := after (.storeWriteEnd (.table .nodeMap) true) b
     t.chA.meter.baseline.isSome ∧ t.chA.meter.reel = .out ∧ t.chB.meter.baseline = none ∧ t.chB.meter.reel = .unknown ∧
       t.chB.gate.outstanding.isSome ∧ t.chA.gate.outstanding = none) ∧
    (failed .product [.product product2]).nv.regions.products = none ∧
    (failed .product [.product product2]).store.staging = .filling (loadOf 40 .product 1 [.product product2]) ∧
    (failed .route [.header h]).nv.regions.route = none ∧
    (written .route [.header h]).journal.waiting = [.manage 40 (.routeOpen 9 0 true none)] ∧
    (after (.storeWriteEnd (.table .route) true) (locked .storage (tableEnd .route [.header h] truck))).journal.waiting = [] :=
  ⟨.inl (by decide +kernel), by decide +kernel⟩

theorem witness_SlotReadsAreAnswered :
    let s (seq : Nat) (b : Bool) := asking 40 0x40 { truck with journal := { truck.journal with
      reads := [{ station := 40, seq := seq, reprint := b }] } }
    (s 2 false).journal.busy = .idle ∧ indexOf (s 5 false) 5 = none ∧
      indexOf (s 2 true) 2 = some { seq := 2, kind := .ticket, block := 0, slot := 1, drained := false } ∧
      slotAt (s 2 true) 0 1 = .written (recordOf 2 (.ticket 1 ticket)) false ∧ (s 2 true).store.settings.printer ≠ 0 ∧
      (∀ f ∈ (s 2 true).line.cwait, isPrintOf .a f = false) ∧ ((s 2 true).ch .a).heldPrint = none ∧ Roomy (s 2 true) :=
  ⟨rfl, by decide +kernel, by decide +kernel, by decide +kernel, by decide +kernel, by decide +kernel, rfl,
   roomy (by decide +kernel)⟩

theorem witness_StagingIsFilled :
    Admitted truck 40 .office .office ∧ truck.ctl.lockout = .none ∧ countInRange .product 8 = true ∧
      countInRange .product 9 = false ∧ truck.store.staging = .empty ∧ actingClass (switchOpened truck) .metrology = .metrology ∧
      countInRange .correction 1 = true ∧
      (let l := loadOf 40 .product 2 [.product product2]
       (held (.filling l) truck).store.staging = .filling l ∧ entryKind (.product product2) = l.kind ∧
         l.entries.length + [Entry.product product2].length ≤ l.declared ∧
         l.declared < l.entries.length + [Entry.product product2, .product product2].length) :=
  ⟨admitted (by decide +kernel), rfl, by decide +kernel⟩

theorem witness_StagingIsFilled_refusals :
    let l := loadOf 120 .product 2 [.product product2]
    let curve : Entry := .correction { number := 0, factors := [] }
    actingClass truck .office ≠ .metrology ∧ (held (.filling l) truck).store.staging = .filling l ∧ l.holder ≠ 40 ∧
      (held (.activating l) truck).store.staging = .activating l ∧ entryKind curve ≠ l.kind ∧
      ([.product, .price, .correction, .stopProgram, .nodeMap, .station, .route].map fun k =>
        [0, 1, 4, 5, 8, 9, 10, 11, 97, 98].filter (countInRange k)) =
        [[1, 4, 5, 8], [1, 4, 5, 8], [1, 4], [0, 1, 4, 5, 8], [0, 1, 4, 5, 8, 9, 10], [1, 4],
          [1, 4, 5, 8, 9, 10, 11, 97]] := by decide +kernel

theorem witness_AbandonEmptiesStaging :
    let l := loadOf 40 .product 2 []
    Admitted truck 40 .office .office ∧ truck.store.staging = .empty ∧
      Admitted (held (.filling l) truck) 120 .metrology .office ∧ Admitted (held (.activating l) truck) 40 .office .office ∧
      Roomy (held (.filling l) truck) ∧ truck.ctl.lockout = .none ∧ l.holder ≠ 120 :=
  ⟨admitted (by decide +kernel), rfl, admitted (by decide +kernel), admitted (by decide +kernel), roomy (by decide +kernel),
   rfl, by decide⟩

/-- What an ACTIVATE of station 120 hands, with the switch OPEN: the change its AUDIT record names. -/
def handedChange (k : TableKind) (es : List Entry) : Option Change :=
  match (after (.activate 120 9) (held (.filling (loadOf 120 k es.length es)) (switchOpened truck))).journal.waiting with
  | [.manage _ (.audit b)] => some b.change
  | _ => none

theorem witness_TableAndSettingWritesBegin :
    let p := held (.filling (loadOf 40 .product 1 [.product { product2 with fee := 1 }])) truck
    let k : Curve := { number := 0, factors := List.replicate 16 9999 }
    let m := held (.filling (loadOf 120 .correction 1 [.correction k])) (switchOpened truck)
    let h : RouteHeader := { id := 9, count := 0, unplanned := true, ceiling := none }
    let r := held (.filling (loadOf 40 .route 1 [.header h])) { truck with route := {} }
    (Admitted p 40 .office .office ∧ tableOf .product [.product { product2 with fee := 1 }] = some (.products [{ product2 with fee := 1 }]) ∧
      tableChecks p (.products [{ product2 with fee := 1 }]) = true ∧ metrologyChange p (.products [{ product2 with fee := 1 }]) = false ∧
      useCondition p (.products [{ product2 with fee := 1 }]) = true) ∧
    (Admitted m 120 .metrology .office ∧ actingClass m .metrology = .metrology ∧
      tableOf .correction [.correction k] = some (.curves [k]) ∧ tableChecks m (.curves [k]) = true ∧
      useCondition m (.curves [k]) = true ∧ accepts m = true) ∧
    (Admitted r 40 .office .office ∧ tableOf .route [.header h] = some (.route h []) ∧ tableChecks r (.route h []) = true ∧
      r.route.state = .none ∧ accepts r = true) ∧
    (∀ l, truck.store.staging ≠ .activating l) ∧
    handedChange .correction [.correction k] = some .correction ∧
    handedChange .nodeMap ((nodesAt .a 10 ++ nodesAt .b 60).map .nodeMap) = some .nodeMap ∧
    handedChange .station [.station { address := 120, cls := .metrology }, .station { address := 121, cls := .metrology }] =
      some .station ∧
    handedChange .station [.station { address := 120, cls := .metrology }, .station { address := 41, cls := .office }] = none ∧
    settingInRange .creepLimit 1 = true ∧ settingInRange .creepLimit 500 = true ∧ settingAddressOk truck .creepLimit 500 = true ∧
    settingInRange .creepLimit 0 = false ∧ settingInRange .creepLimit 501 = false ∧
    settingAddressOk truck .printer 11 = false ∧ settingAddressOk truck .cab 126 = true :=
  ⟨admitted_and (by decide +kernel), admitted_and (by decide +kernel), admitted_and (by decide +kernel), nofun,
   by decide +kernel⟩

theorem witness_TableAndSettingWritesBegin_refusals :
    let k : Curve := { number := 0, factors := List.replicate 16 9999 }
    let h : RouteHeader := { id := 9, count := 0, unplanned := true, ceiling := none }
    let c := loadOf 40 .correction 1 [.correction k]
    let r := loadOf 40 .route 1 [.header h]
    (Admitted (held (.filling c) truck) 40 .office .office ∧ c.kind ≠ .route ∧ r.kind = .route ∧
      c.entries.length = c.declared ∧ (loadOf 40 .correction 2 [.correction k]).entries.length ≠ 2) ∧
    (tableOf .product [.illCoded .product] = none ∧ tableChecks truck (.products []) = false ∧
      tableChecks truck (.curves [k]) = true ∧ metrologyChange truck (.curves [k]) = true ∧
      actingClass truck .office ≠ .metrology ∧ actingClass (switchOpened truck) .metrology = .metrology ∧
      useCondition (inState .paused truck) (.curves [k]) = false ∧ useCondition truck (.curves [k]) = true ∧
      accepts (noBlocks (switchOpened truck)) = false ∧ truck.route.state ≠ .none ∧
      tableChecks { truck with route := {} } (.route h []) = true ∧ tableChecks truck (.route { h with id := 0 } []) = false ∧
      accepts (noBlocks { truck with route := {} }) = false) :=
  ⟨admitted_and (by decide +kernel), by decide +kernel⟩

/-- The node map may change on channel B while channel A is beyond IDLE; entries at and beyond the ends of their ranges. -/
theorem witness_TableAndSettingWritesBegin_checks :
    let d : StagedDrop := { number := 1, account := text 10, product := 2, kind := .preset, preset := some 99999
                            ullage := some 1, ceiling := some 99999999, adjustment := some (-9999), program := none }
    ([nodesAt .a 10 ++ nodesAt .b 60, nodesAt .a 60 ++ nodesAt .b 20].map fun l =>
      useCondition (inState .paused truck) (.nodes l)) = [true, false] ∧
    ([{ product2 with startSlow := 50 }, { product2 with startSlow := 51 }].map fun e =>
      tableChecks truck (.products [e])) = [true, false] ∧
    ([[0, 500], [0, 99999], [0, 100000], [1], [0, 500, 500]].map fun l => tableChecks truck (.prices
      [{ code := 2, tiers := l.map fun n => { fromVolume := n, unitPrice := 1 } }])) = [true, true, false, false, false] ∧
    ([9499, 9500, 10500, 10501].map fun v => tableChecks truck (.curves
      [{ number := 0, factors := List.replicate 16 v }])) = [false, true, true, false] ∧
    ([29, 30, 31, 50].map fun a => tableChecks truck (.nodes
      [{ address := a, role := .tally, chan := .a, silence := 100 }])) = [true, false, false, false] ∧
    ([10, 11].map fun a => tableChecks truck (.stations [{ address := a, cls := .office }])) = [true, false] ∧
    tableChecks truck (.stations [{ address := 10, cls := .driver }]) = false ∧ tableChecks truck (.programs []) = true ∧
    dropOk truck d = true ∧ dropOk truck { d with kind := .fill } = false ∧ dropOk truck { d with program := some 7 } = false := by
  decide +kernel

theorem witness_MetrologyRequestsAct :
    let s := switchOpened truck
    let p (f : Nat) : Proposal := { chan := .a, factor := f, seq := 2, observed := 1003 }
    let t (f : Nat) : State := { s with met := { s.met with proposal := some (p f) } }
    Admitted s 120 .metrology .metrology ∧ metInRange .factorA 9000 = true ∧ metInRange .factorA 11000 = true ∧
      accepts s = true ∧ metValue s.store.metset .factorA = 10000 ∧
      provingResultOf s.met .a = some { seq := 2, pulses := 100000, temp := 150 } ∧
      90000 * 10000 / 100000 = 9000 ∧ 110000 * 10000 / 100000 = 11000 ∧ 89999 * 10000 / 100000 = 8999 ∧
      (t 10032).met.proposal = some (p 10032) ∧ factorInForce (t 10032).store.metset .a ≠ 10032 ∧
      factorInForce (t 10000).store.metset .a = 10000 ∧ (∀ x ∈ (t 10032).req.inProgress, x.code ≠ 0x53) :=
  ⟨admitted (by decide +kernel), by decide +kernel⟩

theorem witness_DropNotesAreHanded :
    let d1 : Drop := { plan := planFor 27, position := 1 }
    let d2 : Drop := { plan := planFor 28, position := 2, state := .partly, delivered := 1000, amount := 11800, tickets := [1] }
    let d3 : Drop := { plan := planFor 29, position := 3, state := .skipped }
    Admitted truck 30 .driver .driver ∧ Admitted truck 40 .office .office ∧ truck.ctl.lockout = .none ∧
      truck.route.state = .opened ∧ truck.route.drops = [] ++ d1 :: [d2, d3] ∧ truck.route.drops = [d1, d2] ++ d3 :: [] ∧
      (∀ e ∈ [] ++ [d2, d3], e.plan.number ≠ d1.plan.number) ∧ accepts truck = true :=
  ⟨admitted (by decide +kernel), admitted (by decide +kernel), by decide +kernel⟩

theorem witness_AdditionsClosesAndLoadsAreHanded :
    let d : StagedDrop := { number := 9999, account := text 10, product := 2, kind := .fill, preset := none, ullage := none
                            ceiling := none, adjustment := none, program := none }
    let planned := { truck with route := { truck.route with
      header := some { id := 7, count := 3, unplanned := false, ceiling := none } } }
    let graded (base : Nat) := { truck with
      store := { truck.store with settings := { truck.store.settings with heel := 50 } }
      comps := { truck.comps with list := truck.comps.list.modify 1 fun k => { k with product := 3, base := base } } }
    Admitted truck 40 .office .driver ∧ Admitted truck 40 .office .office ∧ Admitted truck 30 .driver .driver ∧
      Admitted planned 30 .driver .driver ∧ actingClass truck .office ≠ .driver ∧ actingClass planned .driver = .driver ∧
      dropOk truck d = true ∧ dropOk truck { d with program := some 1 } = true ∧
      truck.route.header = some { id := 7, count := 3, unplanned := true, ceiling := none } ∧
      truck.route.drops.length + (additionsInFlight truck).length < 96 ∧
      (∀ e ∈ truck.route.drops, e.plan.number ≠ d.number) ∧ additionsInFlight truck = [] ∧
      (∀ e ∈ truck.route.drops, e.noteMark = false) ∧ truck.chA.ctx.state = .idle ∧ truck.chB.ctx.state = .idle ∧
      truck.comps.list[2 - 1]? = some { product := 2, base := 120000, delivered := 1000 } ∧
      truck.comps.list[4 - 1]? = some ({ product := 0 } : Comp) ∧ (productOf truck 2).isSome ∧ 119000 + 18810 * 100 = 2000000 ∧
      (graded 6000).store.settings.heel * 100 = 6000 - 1000 ∧ (graded 6001).store.settings.heel * 100 < 6001 - 1000 ∧
      (after (.addDrop 30 9 (.short 9999 (text 10) 2)) truck).journal.waiting.length = 1 ∧
      (after (.loadCompartment 40 9 2 2 20000) (graded 6000)).journal.waiting.length = 1 ∧
      (after (.loadCompartment 40 9 2 2 20000) (graded 6001)).journal.waiting = [] ∧
      (after (.loadCompartment 40 9 4 2 20000) truck).journal.waiting.length = 1 :=
  ⟨admitted (by decide +kernel), admitted (by decide +kernel), admitted (by decide +kernel), admitted (by decide +kernel),
   by decide +kernel⟩

theorem witness_AdditionsClosesAndLoadsAreHanded_counts :
    ((after (.closeRoute 40 9) truck).journal.waiting.map fun a => match a with
      | .manage _ (.routeClose b) => some b.counts
      | _ => none) = [some { planned := 1, partly := 1, delivered := 0, skipped := 1, cancelled := 0 }] := by decide +kernel

theorem witness_TicketsAreOpened :
    let d : Drop := { plan := planFor 27, position := 1 }
    Roomy truck ∧ (truck.ch .a).ctx.state = .idle ∧ (truck.ch .a).heldPrint = none ∧ barred truck .a = false ∧
      complete truck .a = true ∧ accepts truck = true ∧ Admitted truck 30 .driver .driver ∧ truck.store.products.isSome ∧
      truck.store.prices.isSome ∧ dropOf truck 27 = some d ∧ dropServed truck d = true ∧
      (compOf truck 2).product = d.plan.product ∧ 100 ≤ openAuthorised truck d 2 ∧
      Admitted (switchOpened truck) 120 .metrology .metrology :=
  ⟨roomy (by decide +kernel), rfl, rfl, by decide +kernel, by decide +kernel, by decide +kernel,
   admitted (by decide +kernel), rfl, rfl, by decide +kernel, by decide +kernel, by decide +kernel, by decide +kernel,
   admitted (by decide +kernel)⟩

theorem witness_TicketsAreOpened_causes :
    ([truck, meterA (fun m => { m with vapour := .vapour }) truck, gateA (fun g => { g with missed := true }) truck,
      { truck with power := { truck.power with level := .low } }].map fun s => openingCauses s .a) =
      [[], [.air], [.valve], [.supply]] := by decide +kernel

theorem witness_OpenTicketRefusals :
    Admitted truck 30 .driver .driver ∧ barred truck .a = false ∧ (1 ≤ 9999 ∧ 9999 < 10000 ∧ 4 < 5) ∧
      Admitted (locked .storage truck) 30 .driver .driver ∧ Admitted (switchOpened truck) 30 .driver .driver ∧
      Admitted (inState .armed truck) 30 .driver .driver ∧ ((inState .armed truck).ch .a).ctx.state ≠ .idle ∧
      barred (inState .armed truck) .a = false :=
  ⟨admitted (by decide +kernel), by decide +kernel, by decide, admitted (by decide +kernel), admitted (by decide +kernel),
   admitted (by decide +kernel), by decide +kernel, by decide +kernel⟩

theorem witness_TicketsAreClosedAndRetried :
    Admitted (inState .armed truck) 30 .driver .driver ∧ counted ((inState .armed truck).ch .a).meter = false ∧
      Roomy (inState .armed truck) ∧
      counted ((meterA (fun m => { m with rev := 1 }) (inState .armed truck)).ch .a).meter = true ∧
      (∀ st ∈ [CtxState.paused, .held, .flowing, .settling, .closing, .faulted],
        Admits (inState st truck) 30 .driver .driver ∧ ((inState st truck).ch .a).ctx.state = st) ∧
      ((inState .faulted truck).ch .a).ctx.retryMark = false ∧
      actingClass (switchOpened (proving (inState .paused truck))) .metrology = .metrology :=
  ⟨admitted (by decide +kernel), by decide +kernel, roomy (by decide +kernel), by decide +kernel⟩

theorem witness_HoldsAreCleared :
    let s := inState .held truck
    Admitted s 30 .driver .driver ∧ (s.ch .a).ctx.state = .held ∧ (s.ch .a).ctx.mode ≠ .proving ∧
      ((s.ch .a).ctx.causes.filter fun y => !conditionGone s .a y) = [] ∧
      (let t := meterA (fun m => { m with vapour := .vapour }) s
       ((t.ch .a).ctx.causes.filter fun y => !conditionGone t .a y) = [.air]) ∧
      .tally ∈ (ctxA (fun x => { x with causes := [.tally] }) s).chA.ctx.causes ∧
      .metrology ∈ (ctxA (fun x => { x with causes := [.metrology] }) s).chA.ctx.causes ∧
      conditionGone s .a .creep = true ∧ conditionGone (ctxA (fun x => { x with rest := some 1499 }) s) .a .creep = false :=
  ⟨admitted (by decide +kernel), by decide +kernel⟩

theorem witness_LockoutIsCleared :
    let s := switchOpened (locked .storage truck)
    let f := switchOpened (locked .storage (inState .faulted truck))
    let b : AuditBody := { change := .lockoutClear, counter := .configuration, station := 120, old := .storageLockout
                           new := .noLockout, provingSeq := 0, observed := 0, committed := 0 }
    Admitted (switchOpened truck) 120 .metrology .metrology ∧ (switchOpened truck).ctl.lockout ≠ .storage ∧
      Admitted s 120 .metrology .metrology ∧ s.ctl.faultOrder = [] ∧ s.ctl.clearing = none ∧
      Admitted f 120 .metrology .metrology ∧ f.ctl.faultOrder = .a :: [] ∧
      (let t := programming (.manage 120 (.audit b)) (.audit b) false
         { s with ctl := { s.ctl with clearing := some { station := 120, committed := [] } } }
       t.journal.busy = .programming (.manage 120 (.audit b)) (recordOf 3 (.audit b)) 0 2 false ∧ t.ctl.clearing.isSome) :=
  ⟨admitted (by decide +kernel), by decide +kernel, admitted (by decide +kernel), rfl, rfl, admitted (by decide +kernel),
   rfl, by decide +kernel⟩

/-- The commit of a FAULTED record with another one left, and with none; a failed program; no slot left for an append. -/
theorem witness_LockoutIsCleared_sequence :
    let clearing (s : State) := asking 120 0x54 { s with ctl := { s.ctl with
      lockout := .storage, clearing := some { station := 120, committed := [] } } }
    let one := clearing (inState .faulted truck)
    let two := { one with chB := one.chA, ctl := { one.ctl with faultOrder := [.a, .b] } }
    let p (s : State) := programming (.close .a) (.ticket 2 ticket) true s
    let taken := { noBlocks one with journal := { (noBlocks one).journal with waiting := [.close .a] } }
    let committed (s : State) := after (.recordProgramEnd true .written { lost := [], markOk := true }) s
    let failed := after (.recordProgramEnd false .unreadable { lost := [], markOk := true }) (p one)
    AnswerRoom one ∧
    (one.ctl.clearing = some { station := 120, committed := [] } ∧ (one.ch .a).ctx.requester = none ∧
      (one.ch .a).ctx.state = .faulted ∧ (one.ch .a).ctx.retryMark = false ∧ (one.ch .a).ctx.pending.isSome ∧
      (p one).journal.busy = .programming (.close .a) (recordOf 3 (.ticket 2 ticket)) 0 2 true ∧
      one.req.inProgress.find? (fun q => q.station = 120) = some { station := 120, code := 0x54, seq := 9, cls := .office }) ∧
    ((committed (p two)).journal.waiting = [.close .b] ∧ (committed (p one)).journal.waiting.length = 1 ∧
      (committed (p one)).ctl.clearing = some { station := 120, committed := [(.a, 2)] } ∧
      failed.req.inProgress = [] ∧ failed.ctl.lockout = .storage ∧ failed.ctl.clearing = none) ∧
    nextSlot taken = none ∧ taken.journal.busy = .idle ∧ (after .arbiterTake taken).ctl.clearing = none :=
  ⟨.inl (by decide +kernel), by decide +kernel⟩

theorem witness_JournalRequestsAct :
    Admitted truck 40 .office .office ∧ indexOf truck 2 = some { seq := 2, kind := .ticket, block := 0, slot := 1, drained := false } ∧
      indexOf truck 3 = none ∧ truck.journal.release = none ∧ drainCursor truck.journal = 2 ∧
      (∀ e ∈ truck.journal.index, e.seq ≤ 1 → drainedEntry truck.journal e = true) ∧ truck.journal.newestSeq = 2 ∧
      drainedEntry truck.journal { seq := 2, kind := .ticket, block := 0, slot := 1, drained := false } = false ∧
      blockState truck 0 ≠ .retired ∧ Admitted truck 30 .driver .driver ∧ truck.store.settings.printer ≠ 0 ∧
      State.reset.store.settings.printer = 0 ∧
      indexOf truck 1 = some { seq := 1, kind := .load, block := 0, slot := 0, drained := true } :=
  ⟨admitted (by decide +kernel), by decide +kernel, by decide +kernel, rfl, by decide +kernel, by decide +kernel, rfl,
   by decide +kernel, by decide +kernel, admitted (by decide +kernel), by decide +kernel⟩

theorem witness_RestartBeginsAfterItsReply :
    let r : Reply := { dst := 40, seq := 4, code := 0x62, refusal := none, result := .nothing }
    let s := { truck with line := { truck.line with cline := some (.reply r) }, req := { truck.req with restart := some false } }
    Admitted truck 40 .office .office ∧ truck.ctl.lockout ≠ .storage ∧ truck.req.inProgress = [] ∧
      Admitted (locked .storage truck) 40 .office .office ∧ Admitted (inState .paused truck) 40 .office .office ∧
      (inState .paused truck).chA.ctx.state ≠ .idle ∧ Admitted (asking 30 0x24 truck) 40 .office .office ∧
      s.line.cline = some (.reply r) ∧ s.req.restart = some false ∧ s.journal.erasing = none :=
  ⟨admitted (by decide +kernel), by decide +kernel, rfl, admitted (by decide +kernel), admitted (by decide +kernel),
   by decide +kernel, admitted (by decide +kernel), by decide +kernel⟩

theorem witness_AlertAndStandbyAreJudged :
    let h := { inState .held truck with ctl := { truck.ctl with alert := true } }
    let p := { truck with
      pins := { truck.pins with ignitionOn := false }, power := { truck.power with standby := some 1 } }
    (∃ t, step { truck with pending := [.clockSecond] } = .next t) ∧ alertKept truck ∧ standbyKept truck ∧ alertKept h ∧
      standbyKept p ∧ .air ∈ h.store.settings.maskCauses ∧ .air ∈ h.chA.ctx.causes ∧ p.power.state = .on ∧
      p.store.settings.standbyDelay ≠ 0 ∧ alertKept (after .clockSecond h) ∧ standbyKept (after .clockSecond p) :=
  ⟨⟨_, rfl⟩, by simp only [alertKept]; decide +kernel, by simp only [standbyKept]; decide +kernel,
   by simp only [alertKept]; decide +kernel, by simp only [standbyKept]; decide +kernel, by decide +kernel,
   by decide +kernel, rfl, by decide +kernel, by simp only [alertKept]; decide +kernel,
   by simp only [standbyKept]; decide +kernel⟩

theorem witness_PlacesCountersAndArrayAreKept :
    PlacesKept truck ∧ countersKept truck ∧ arrayKept truck :=
  ⟨⟨by decide +kernel, by decide +kernel, by decide +kernel, fun c => by cases c <;> decide +kernel⟩,
   by simp only [countersKept, countersWithin]; decide +kernel, by simp only [arrayKept]; decide +kernel⟩

theorem witness_FramesReadBackFromTheirBytes :
    frameOk { through with dst := 127, src := 126, payload := List.replicate 255 0 } = true ∧
      frameOk { through with dst := 0, src := 1, payload := [] } = true ∧
      parseFrame (frameBytes { through with payload := [] }) = some { through with payload := [] } := by decide +kernel

theorem witness_FiguresAndStatus :
    let s := inState .paused truck
    (s.ch .a).ctx.drop = some { plan := planFor 27, routeId := 7 } ∧ (s.ch .a).meter.rev < (s.ch .a).meter.fwd ∧
      (s.ch .a).ctx.mode = .delivery ∧ (s.ch .a).ctx.product = some (planFor 27).product ∧
      (let t := meterA (fun m => { m with fwd := 5, rev := 5 }) s
       (t.ch .a).meter.fwd ≤ (t.ch .a).meter.rev) ∧
      (let t := meterA (fun m => { m with fwd := 5, rev := 6 }) s
       (t.ch .a).meter.fwd < (t.ch .a).meter.rev) ∧
      (let t := ctxA (fun x => { x with causes := [.tally] }) s
       .tally ∈ (t.ch .a).ctx.causes) ∧
      statusRule 1 .request [] false false .preset 50 4800 100 = .complete ∧
      statusRule 1 .request [] false false .preset 50 4799 100 = .short ∧
      (proving s).chA.ctx.mode = .proving ∧
      averageTemp { probe := none, offset := -3 } = 147 ∧ averageTemp { fwd := 2, rev := 2, probe := some 40 } = 40 ∧
      averageTemp { fwd := 10, weighted := -59 } = -5 ∧
      (let c := { truck with store := { truck.store with
         curves := some [{ number := 0, factors := (List.range 16).map fun i => 10000 - 10 * i }] } }
       (productOf c 2).isSome ∧ (curveOf c 0).map List.length = some 16 ∧
         ([-301, -300, -299, -251, -250, 449, 450, 451].map fun t => productVcf c 2 t) =
           [(10000, true), (10000, false), (9999, false), (9990, false), (9990, false), (9850, false), (9850, false),
             (9850, true)]) ∧
      (let price := priceOf (some product2) tiers2 (-50) true 49900 200
       price.lines = [{ volume := 100, unitPrice := 1180 }, { volume := 100, unitPrice := 1120 }] ∧
         price.adjustment = -10 ∧ price.fee = 0) := by decide +kernel

/-- A proving run judged sound, and not; the OVERRUN flag at the authorised volume with the allowance, and beyond it. -/
theorem witness_FiguresAndStatus_records :
    let p := proving (inState .paused truck)
    let sound (s : State) := match buildRecord s .a with | .proving _ x => some x | .ticket _ => none
    let exceeds (pulses : Nat) := match buildRecord (meterA (fun m => { m with fwd := pulses }) (inState .paused truck)) .a with
      | .ticket t => some t.flags.overrun
      | .proving _ _ => none
    (p.ch .a).ctx.drop = none ∧ sound p = some true ∧ sound (meterA (fun m => { m with fwd := 0 }) p) = some false ∧
      sound (ctxA (fun x => { x with causes := [.tally] }) p) = some false ∧
      sound (ctxA (fun x => { x with origin := .shutdown }) p) = some false ∧
      exceeds 5500 = some false ∧ exceeds 5501 = some true := by decide +kernel

end Sys2Proof.Tests
end

namespace Sys2Proof.Machine.LoadedTables

/-! ### Reset (R38, R166) -/

theorem placesKept_reset : PlacesKept State.reset :=
  ⟨by decide, by decide, by decide, fun c => by cases c <;> decide⟩

theorem countersKept_reset : countersKept State.reset := by
  have zero : countersWithin {} := by simp [countersWithin]
  exact ⟨zero, zero⟩

/-- The blocks of the array at reset are new blocks. -/
theorem block_reset {k : Block} (h : k ∈ State.reset.nv.array) : k = {} := List.eq_of_mem_replicate h

theorem arrayKept_reset : arrayKept State.reset :=
  ⟨List.length_replicate, fun k hk => by rw [block_reset hk]; rfl⟩

theorem emptyArray_reset : emptyArray State.reset := fun k hk => by
  rw [block_reset hk]
  exact ⟨rfl, rfl, fun _ hx => List.eq_of_mem_replicate hx⟩

/-- Settles O58: the reset state is a literal, and its array is 64 times the new block. -/
theorem resetIsTheFactoryState : Obligations.ResetIsTheFactoryState :=
  ⟨⟨rfl, rfl, placesKept_reset, countersKept_reset, arrayKept_reset⟩,
   rfl, rfl, rfl, rfl, rfl, rfl, rfl, rfl, rfl, rfl, rfl, rfl, rfl, rfl, rfl, rfl, arrayKept_reset.1, emptyArray_reset⟩

/-! ### The checks of a request that is admitted -/

theorem checked_refuses {l : List (Bool × RefCode)} {r : RefCode} (h : firstRefusal l = some r) (st : Byte)
    (act : State → State) (s : State) : checked l st act s = refuse st r s := by
  rw [checked, h]

theorem checked_acts {l : List (Bool × RefCode)} (h : firstRefusal l = none) (st : Byte) (act : State → State)
    (s : State) : checked l st act s = act s := by
  rw [checked, h]

/-- An admitted station's request that its owner refuses: nothing but the line changes. -/
theorem admitted_refused {s : State} {src seq code : Byte} {k need : Cls} {owner : Owner} {r : RefCode}
    (h : Admitted s src k need) (hc : requiredClass code = some need)
    (ho : owner src (actingClass s k) (taken s src code seq k) = refuse src r (taken s src code seq k)) :
    ∃ t, event (takeRequest src seq code owner) s = .next t ∧ Answered t src seq code (some r) .nothing ∧
      t.offLine = s.offLine :=
  admitted_answered h hc ho rfl rfl h.on rfl

/-! ### Replies that stand on the C-bound side -/

/-- The reply has a place, or waits for one. -/
def replyStands (s : State) (r : Reply) : Prop := placedC s (.reply r) ∨ .reply r ∈ s.line.cwait

/-- Every reply that stands in `t` stood in `s`. -/
def NoReplyAdded (s t : State) : Prop := ∀ r, replyStands t r → replyStands s r

theorem NoReplyAdded.trans {s t u : State} (h : NoReplyAdded s t) (k : NoReplyAdded t u) : NoReplyAdded s u :=
  fun r hr => h r (k r hr)

theorem noReplyAdded_of_line {s t : State} (h : t.line = s.line) : NoReplyAdded s t := fun r hr => by
  simpa [replyStands, placedC, h] using hr

theorem noReplyAdded_refl (s : State) : NoReplyAdded s s := fun _ h => h

theorem noReplyAdded_takeCSeq (s : State) : NoReplyAdded s (takeCSeq s) := fun _ h => h

theorem noReplyAdded_endRequest (st : Byte) (s : State) : NoReplyAdded s (endRequest st s) := fun _ h => h

/-- A reply that stands after a frame is queued is that frame or stood before. -/
theorem replyStands_queueC {s : State} {f : CFrame} {b : Bool} {r : Reply} (h : replyStands (queueC f b s) r) :
    f = .reply r ∨ replyStands s r := by
  rcases h with (h | ⟨e, he, hf⟩) | h
  · exact .inr (.inl (.inl h))
  · rcases List.mem_append.mp he with he | he
    · exact .inr (.inl (.inr ⟨e, he, hf⟩))
    · rw [List.mem_singleton.mp he] at hf
      exact .inl hf
  · exact .inr (.inr h)

theorem noReplyAdded_queueC {s : State} {f : CFrame} {b : Bool} (hf : isAnswerFrame f = false) :
    NoReplyAdded s (queueC f b s) := fun r hr => (replyStands_queueC hr).resolve_left (by rintro rfl; cases hf)

theorem noReplyAdded_waitC {s : State} {f : CFrame} (hf : isAnswerFrame f = false) : NoReplyAdded s (waitC f s) := by
  rintro r (h | h)
  · exact .inl h
  · rcases List.mem_append.mp h with h | h
    · exact .inr h
    · rw [← List.mem_singleton.mp h] at hf
      cases hf

theorem noReplyAdded_putPrint (p : Print) (s : State) : NoReplyAdded s (putPrint p s) := by
  unfold putPrint
  split
  · exact (noReplyAdded_queueC rfl).trans (noReplyAdded_takeCSeq _)
  split
  · exact noReplyAdded_of_line (modCh_line _ _ _)
  · exact (noReplyAdded_waitC rfl).trans (noReplyAdded_takeCSeq _)

theorem noReplyAdded_printSlotEmptied (c : Chan) (s : State) : NoReplyAdded s (printSlotEmptied c s) := by
  unfold printSlotEmptied
  split
  · exact (noReplyAdded_of_line (modCh_line _ _ _)).trans (noReplyAdded_putPrint _ _)
  · exact noReplyAdded_refl s

theorem noReplyAdded_handPlace (b : Bool) (s : State) : NoReplyAdded s (handPlace b s) := by
  unfold handPlace
  split
  · exact noReplyAdded_refl s
  · rename_i f hf
    have moved : NoReplyAdded s (queueC f b (modLine (fun l => { l with cwait := l.cwait.erase f }) s)) := by
      intro r hr
      rcases replyStands_queueC hr with rfl | (h | h)
      · exact .inr (List.mem_of_find?_eq_some hf)
      · exact .inl h
      · exact .inr (List.mem_of_mem_erase h)
    dsimp only
    split
    · exact moved.trans (noReplyAdded_of_line rfl)
    · exact moved.trans (noReplyAdded_printSlotEmptied _ _)
    all_goals exact moved

theorem noReplyAdded_startC (s : State) : NoReplyAdded s (startC s) := by
  unfold startC
  split
  · split
    · rename_i e rest _ hq
      refine NoReplyAdded.trans ?_ (noReplyAdded_handPlace _ _)
      rintro r ((h | ⟨x, hx, hf⟩) | h)
      · exact .inl (.inr ⟨e, by simp [hq], by simpa using h⟩)
      · exact .inl (.inr ⟨x, hq ▸ List.mem_cons_of_mem e hx, hf⟩)
      · exact .inr h
    · exact noReplyAdded_refl s
  · exact noReplyAdded_refl s

theorem noReplyAdded_putNotice (c : Chan) (n : Notice) (s : State) : NoReplyAdded s (putNotice c n s) := by
  unfold putNotice
  dsimp only
  split
  · rintro r ((h | ⟨x, hx, hf⟩) | h)
    · exact .inl (.inl h)
    · obtain ⟨e, he, rfl⟩ := List.mem_map.mp hx
      split at hf
      · cases hf
      · exact .inl (.inr ⟨e, he, hf⟩)
    · exact .inr h
  split
  · rintro r (h | h)
    · exact .inl h
    · obtain ⟨w, hw, he⟩ := List.mem_map.mp h
      split at he
      · cases he
      · exact .inr (he ▸ hw)
  split
  · exact ((noReplyAdded_takeCSeq s).trans (noReplyAdded_queueC rfl)).trans (noReplyAdded_startC _)
  · exact (noReplyAdded_takeCSeq s).trans (noReplyAdded_waitC rfl)

theorem noReplyAdded_produceNotice (c : Chan) (s : State) : NoReplyAdded s (produceNotice c s) := by
  unfold produceNotice
  dsimp only
  split
  · exact noReplyAdded_of_line (by simp)
  · exact (noReplyAdded_of_line (by simp)).trans (noReplyAdded_putNotice _ _ _)

theorem noReplyAdded_valueNotice (c : Chan) (s : State) : NoReplyAdded s (valueNotice c s) := by
  unfold valueNotice
  split
  · exact noReplyAdded_refl s
  split
  · exact noReplyAdded_of_line (by simp)
  split
  · exact noReplyAdded_of_line (by simp)
  · exact noReplyAdded_produceNotice _ _

theorem noReplyAdded_settleNotice (c : Chan) (s : State) : NoReplyAdded s (settleNotice c s) := by
  unfold settleNotice
  dsimp only
  refine NoReplyAdded.trans ?_ (noReplyAdded_of_line (modCh_line _ _ _))
  split
  · split
    · exact noReplyAdded_refl s
    · exact noReplyAdded_valueNotice _ _
  · exact noReplyAdded_refl s

/-- What closes a command sends no reply. -/
theorem noReplyAdded_finish (s : State) : NoReplyAdded s (finish s) := by
  have notices := (noReplyAdded_settleNotice .a s).trans (noReplyAdded_settleNotice .b _)
  unfold finish judgePowerOff
  split
  · rintro r ((h | ⟨e, he, _⟩) | h)
    · cases h
    · cases he
    · cases h
  · exact notices

/-- A reply that is sent is the only one added. -/
theorem replyStands_sendReply {x r : Reply} {s : State} (h : replyStands (sendReply x s) r) :
    r = x ∨ replyStands s r := by
  unfold sendReply at h
  split at h
  · have queued := ((noReplyAdded_endRequest _ _).trans (noReplyAdded_startC _)) r h
    exact (replyStands_queueC queued).imp_left fun e => (CFrame.reply.inj e).symm
  · rcases h with h | h
    · exact .inr (.inl h)
    · exact (List.mem_append.mp h).symm.imp (fun h => CFrame.reply.inj (List.mem_singleton.mp h)) .inr

/-- A request is answered with one reply, to its station. -/
theorem replyStands_reply {st : Byte} {x : Option RefCode} {y : Result} {r : Reply} {s : State}
    (h : replyStands (reply st x y s) r) : r.dst = st ∨ replyStands s r := by
  unfold reply at h
  split at h
  · exact (replyStands_sendReply h).imp_left (congrArg Reply.dst)
  · exact .inr h

/-- Where no frame waits for a place, an admitted request that is answered at once sends no reply to another station. -/
theorem admitted_replies_to_sender {s t u : State} {src seq code : Byte} {k need : Cls} {owner : Owner}
    {x : Option RefCode} {y : Result} (h : Admitted s src k need) (hc : requiredClass code = some need)
    (ho : owner src (actingClass s k) (taken s src code seq k) = reply src x y u) (hl : u.line = s.line)
    (hw : s.line.cwait = []) (he : event (takeRequest src seq code owner) s = .next t) {r : Reply}
    (hr : placedC t (.reply r)) : r.dst = src ∨ placedC s (.reply r) := by
  rw [event, takeRequest_ready h.toReady hc h.allowed, ho] at he
  cases he
  refine (replyStands_reply (noReplyAdded_finish _ r (.inl hr))).imp_right fun stood => ?_
  rcases noReplyAdded_of_line hl r stood with placed | waits
  · exact placed
  · rw [hw] at waits
    cases waits

/-! ### What the requests over the staging area ask of it -/

theorem notLocked_iff (s : State) : notLocked s = true ↔ s.ctl.lockout = .none := by simp [notLocked]

theorem staged_empty {s : State} (h : s.store.staging = .empty) : staged s = none := by simp [staged, h]
theorem staged_filling {s : State} {l : Load} (h : s.store.staging = .filling l) : staged s = some l := by
  simp [staged, h]
theorem staged_activating {s : State} {l : Load} (h : s.store.staging = .activating l) : staged s = some l := by
  simp [staged, h]

/-! ### ABANDON -/

section
variable {s : State} {st : Byte} {k : Cls} (h : Admitted s st k .office) (q : Byte)
include h

theorem abandon_empty (he : s.store.staging = .empty) : ∃ t, exec (.abandon st q) s = .next t ∧
    Answered t st q 0x33 (some .state) .nothing ∧ t.offLine = s.offLine :=
  admitted_refused (owner := ownAbandon) h rfl (checked_refuses (by simp [firstRefusal, staged_empty he]) _ _ _)

theorem abandon_activating {l : Load} (ha : s.store.staging = .activating l) : ∃ t, exec (.abandon st q) s = .next t ∧
    Answered t st q 0x33 (some .busy) .nothing ∧ t.offLine = s.offLine :=
  admitted_refused (owner := ownAbandon) h rfl
    (checked_refuses (by simp [firstRefusal, staged_activating ha, isActivating, ha]) _ _ _)

theorem abandon_filling {l : Load} (hf : s.store.staging = .filling l) : ∃ t, exec (.abandon st q) s = .next t ∧
    Answered t st q 0x33 none .nothing ∧
    t.offLine = { s.offLine with store := { s.store with staging := .empty } } ∧
    (Roomy s → ∀ r : Reply, placedC t (.reply r) → r.dst = st ∨ placedC s (.reply r)) := by
  have passes : firstRefusal [((staged (taken s st 0x33 q k)).isSome, .state),
      (!isActivating (taken s st 0x33 q k), .busy)] = none := by
    simp [firstRefusal, staged_filling hf, isActivating, hf]
  have acts := checked_acts passes st
    (fun s => accept st .nothing (modStore (fun t => { t with staging := .empty }) s)) (taken s st 0x33 q k)
  obtain ⟨t, done, answered, frame⟩ := admitted_answered (owner := ownAbandon) h rfl acts rfl rfl h.on rfl
  exact ⟨t, done, answered, frame, fun roomy r =>
    admitted_replies_to_sender (owner := ownAbandon) h rfl acts rfl roomy.noneWaits done⟩

/-- LOAD PIECE and ACTIVATE are refused alike where the staging area is EMPTY or another station's. -/
theorem piece_activate_refused {r : RefCode} (hn : s.ctl.lockout = .none)
    (hs : s.store.staging = .empty ∧ r = .state ∨ ∃ l, s.store.staging = .filling l ∧ l.holder ≠ st ∧ r = .inUse) :
    (∀ first es ragged, ∃ t, exec (.loadPiece st q first es ragged) s = .next t ∧
      Answered t st q 0x31 (some r) .nothing ∧ t.offLine = s.offLine) ∧
    ∃ t, exec (.activate st q) s = .next t ∧ Answered t st q 0x32 (some r) .nothing ∧ t.offLine = s.offLine := by
  have unlocked : notLocked s = true := (notLocked_iff s).mpr hn
  constructor
  · intro first es ragged
    refine admitted_refused (owner := ownLoadPiece first es ragged) h rfl (checked_refuses ?_ _ _ _)
    rcases hs with ⟨he, rfl⟩ | ⟨l, hf, hl, rfl⟩
    · simp [loadPieceChecks, firstRefusal, unlocked, staged_empty he]
    · simp [loadPieceChecks, firstRefusal, unlocked, staged_filling hf, hl]
  · refine admitted_refused (owner := ownActivate) h rfl (checked_refuses ?_ _ _ _)
    rcases hs with ⟨he, rfl⟩ | ⟨l, hf, hl, rfl⟩
    · simp [activateChecks, firstRefusal, unlocked, staged_empty he]
    · simp [activateChecks, firstRefusal, unlocked, staged_filling hf, hl]

end

/-- Settles O44, by the three states of the staging area. -/
theorem abandonEmptiesStaging : Obligations.AbandonEmptiesStaging := by
  refine ⟨rfl, fun s st q k h => ⟨abandon_empty h q, fun _ => abandon_activating h q, fun _ => abandon_filling h q,
    fun hn => ⟨fun he => ?_, fun l hf hl => ?_⟩⟩⟩
  · exact piece_activate_refused h q hn (.inl ⟨he, rfl⟩)
  · exact piece_activate_refused h q hn (.inr ⟨l, hf, hl, rfl⟩)

/-! ### BEGIN LOAD -/

theorem countInRange_iff (n : Nat) :
    (countInRange .product n = true ↔ 1 ≤ n ∧ n ≤ 8) ∧ (countInRange .price n = true ↔ 1 ≤ n ∧ n ≤ 8) ∧
    (countInRange .correction n = true ↔ 1 ≤ n ∧ n ≤ 4) ∧ (countInRange .stopProgram n = true ↔ n ≤ 8) ∧
    (countInRange .nodeMap n = true ↔ n ≤ 10) ∧ (countInRange .station n = true ↔ 1 ≤ n ∧ n ≤ 4) ∧
    (countInRange .route n = true ↔ 1 ≤ n ∧ n ≤ 97) := by
  simp [countInRange]

/-- The staging area is free for a station where it is EMPTY or FILLING for that station. -/
theorem stagingFree_iff (s : State) (st : Byte) : stagingFree s st = true ↔
    s.store.staging = .empty ∨ ∃ l, s.store.staging = .filling l ∧ l.holder = st := by
  unfold stagingFree
  cases s.store.staging <;> simp

theorem stagingFree_eq_false (s : State) (st : Byte) : stagingFree s st = false ↔
    (∃ l, s.store.staging = .filling l ∧ l.holder ≠ st) ∨ ∃ l, s.store.staging = .activating l := by
  unfold stagingFree
  cases s.store.staging <;> simp

/-- A CORRECTION table is begun in METROLOGY class only (R29). -/
theorem correctionClass_ok {kind : TableKind} {acting : Cls} (h : kind = .correction → acting = .metrology) :
    onlyIf (kind = .correction) (acting = .metrology) = true := by
  simpa [onlyIf, Decidable.imp_iff_not_or] using h

section
variable {s : State} {st : Byte} {k : Cls} (h : Admitted s st k .office) (q : Byte)
include h

theorem beginLoad_refused {kind : Option TableKind} {n : Nat} {r : RefCode}
    (hr : firstRefusal (beginLoadChecks s st (actingClass s k) kind n) = some r) :
    ∃ t, exec (.beginLoad st q kind n) s = .next t ∧ Answered t st q 0x30 (some r) .nothing ∧ t.offLine = s.offLine :=
  admitted_refused (owner := ownBeginLoad kind n) h rfl (checked_refuses hr _ _ _)

theorem beginLoad_fills {kind : TableKind} {n : Nat}
    (hp : firstRefusal (beginLoadChecks s st (actingClass s k) (some kind) n) = none) :
    ∃ t, exec (.beginLoad st q (some kind) n) s = .next t ∧ Answered t st q 0x30 none .nothing ∧
      t.offLine = { s.offLine with store := { s.store with
        staging := .filling { holder := st, kind := kind, declared := n, entries := [] } } } :=
  admitted_answered (owner := ownBeginLoad (some kind) n) h rfl (checked_acts hp _ _ _) rfl rfl h.on rfl

end

/-! ### LOAD PIECE -/

theorem pieceFits_iff (l : Load) (first : Nat) (es : List Entry) (ragged : Bool) :
    pieceFits l first es ragged = true ↔ ragged = false ∧ es ≠ [] ∧ (∀ e ∈ es, entryKind e = l.kind) ∧
      first = l.entries.length ∧ l.entries.length + es.length ≤ l.declared := by
  simp [pieceFits, and_assoc]

theorem pieceFits_eq_false {l : Load} {first : Nat} {es : List Entry} {ragged : Bool}
    (h : ragged = true ∨ es = [] ∨ (∃ e ∈ es, entryKind e ≠ l.kind) ∨ first ≠ l.entries.length ∨
      l.declared < l.entries.length + es.length) : pieceFits l first es ragged = false := by
  refine Bool.eq_false_iff.mpr fun fits => ?_
  obtain ⟨whole, some_entry, of_kind, next, room⟩ := (pieceFits_iff l first es ragged).mp fits
  rcases h with h | h | ⟨e, he, hk⟩ | h | h
  · simp [whole] at h
  · exact some_entry h
  · exact hk (of_kind e he)
  · exact h next
  · omega

section
variable {s : State} {st : Byte} {k : Cls} (q : Byte) (hn : s.ctl.lockout = .none) {l : Load}
  (hf : s.store.staging = .filling l) (hl : l.holder = st)
include hn hf hl

/-- LOAD PIECE from the holder reaches its checks 4 to 6. -/
theorem ownLoadPiece_holder (first : Nat) (es : List Entry) (ragged : Bool) :
    ownLoadPiece first es ragged st (actingClass s k) (taken s st 0x31 q k) =
      loadPieceNow l first es ragged st (taken s st 0x31 q k) := by
  have held : staged (taken s st 0x31 q k) = some l := staged_filling hf
  have passes : firstRefusal (loadPieceChecks (taken s st 0x31 q k) st) = none := by
    simp [loadPieceChecks, firstRefusal, (notLocked_iff s).mpr hn, staged_filling hf, hl]
  rw [ownLoadPiece, checked_acts passes, held]

variable (h : Admitted s st k .office)
include h

theorem loadPiece_appends {first : Nat} {es : List Entry} {ragged : Bool} (fits : pieceFits l first es ragged = true) :
    ∃ t, exec (.loadPiece st q first es ragged) s = .next t ∧
      Answered t st q 0x31 none (.received (l.entries.length + es.length)) ∧
      t.offLine = { s.offLine with store := { s.store with
        staging := .filling { l with entries := l.entries ++ es } } } := by
  have own := ownLoadPiece_holder (k := k) q hn hf hl first es ragged
  rw [loadPieceNow, if_pos fits] at own
  have appended : appendEntries es s.store.staging = .filling { l with entries := l.entries ++ es } := by
    rw [hf, appendEntries]
  rw [← appended]
  exact admitted_answered (owner := ownLoadPiece first es ragged) h rfl own rfl rfl h.on rfl

theorem loadPiece_refused {first : Nat} {es : List Entry} {ragged : Bool} (fits : pieceFits l first es ragged = false) :
    ∃ t, exec (.loadPiece st q first es ragged) s = .next t ∧
      Answered t st q 0x31 (some .argument) (.received l.entries.length) ∧ t.offLine = s.offLine := by
  have own := ownLoadPiece_holder (k := k) q hn hf hl first es ragged
  rw [loadPieceNow, if_neg (by simp [fits])] at own
  exact admitted_answered (owner := ownLoadPiece first es ragged) h rfl own rfl rfl h.on rfl

end

/-- Settles O43: each case of BEGIN LOAD by the first of its checks that fails, LOAD PIECE by whether the piece fits. -/
theorem stagingIsFilled : Obligations.StagingIsFilled := by
  refine ⟨countInRange_iff, fun s st q k h hn => ?_⟩
  have unlocked := (notLocked_iff s).mpr hn
  refine ⟨fun kind n hc hr hs => ?_, ⟨fun n hc => ?_, fun n => ?_, fun kind n hc => ⟨fun hr => ?_, fun hr hs => ?_⟩⟩,
    fun l first es ragged hf hl => ⟨fun h1 h2 h3 h4 h5 => ?_, fun misfit => ?_⟩⟩
  · refine beginLoad_fills h q ?_
    simp [beginLoadChecks, firstRefusal, unlocked, correctionClass_ok hc, hr,
      (stagingFree_iff s st).mpr hs]
  · refine beginLoad_refused h q ?_
    simp [beginLoadChecks, firstRefusal, unlocked, onlyIf, hc]
  · refine beginLoad_refused h q ?_
    simp [beginLoadChecks, firstRefusal, unlocked, onlyIf]
  · refine beginLoad_refused h q ?_
    simp [beginLoadChecks, firstRefusal, unlocked, correctionClass_ok hc, hr]
  · refine beginLoad_refused h q ?_
    simp [beginLoadChecks, firstRefusal, unlocked, correctionClass_ok hc, hr,
      (stagingFree_eq_false s st).mpr hs]
  · exact loadPiece_appends q hn hf hl h ((pieceFits_iff l first es ragged).mpr ⟨h1, h2, h3, h4, h5⟩)
  · exact loadPiece_refused q hn hf hl h (pieceFits_eq_false misfit)

/-! ### The read of the store (R38) -/

/-- A region as it reads: failing where it is among the failing ones, otherwise as stored. -/
def readRegion {α : Type} (failing : List Region) (r : Region) (x : Option α) : Option α :=
  if r ∈ failing then none else x

/-- The regions as they read. -/
def readRegions (failing : List Region) (g : Regions) : Regions where
  settings := readRegion failing .settings g.settings
  products := readRegion failing (.table .product) g.products
  prices := readRegion failing (.table .price) g.prices
  curves := readRegion failing (.table .correction) g.curves
  programs := readRegion failing (.table .stopProgram) g.programs
  nodes := readRegion failing (.table .nodeMap) g.nodes
  stations := readRegion failing (.table .station) g.stations
  route := readRegion failing (.table .route) g.route

/-- The regions fail one after the other. -/
theorem foldl_failRegion (failing : List Region) (g : Regions) :
    failing.foldl failRegion g = readRegions failing g := by
  induction failing generalizing g with
  | nil => simp [readRegions, readRegion]
  | cons r rest ih =>
    rw [List.foldl_cons, ih]
    rcases r with - | kind
    · simp [readRegions, readRegion, failRegion]
    · cases kind <;> simp [readRegions, readRegion, failRegion]

/-- What STORE_READ makes of the state (R38, R202). -/
theorem storeReadDone_eq {s : State} (failing : List Region) (hp : s.power.state = .starting)
    (hr : s.power.phase = .reading) :
    let g := readRegions failing s.nv.regions
    let level := classLevel (readStore g s.store).settings s.power.level s.pins.voltage
    storeReadDone failing s =
      { s with
        nv := { s.nv with regions := g }
        store := readStore g s.store
        power := { s.power with
          level := level
          phase := if level = .brown then .heldBrown else .reconstructing } } := by
  simp only [storeReadDone, hp, hr, decide_true, Bool.and_self, if_true, modRegions, foldl_failRegion, classSupply,
    modStore, modPower, reduceCtorEq, decide_false, Bool.and_false, Bool.false_eq_true, if_false]

/-- The contents that R135 gives the programs at the factory. -/
theorem factoryPrograms_at : ∀ n < 8, (factoryPrograms[n]?).getD none =
    if n = 0 then some factoryProgram0 else if n = 1 then some factoryProgram1 else none := by decide

/-- The programs after a load: the loaded ones, and the factory's where 0 and 1 are not loaded (R27). -/
theorem programsAfter_eq (l : List ProgramEntry) : programsAfter l = (List.range 8).map fun n =>
    match l.find? fun e => e.number = n with
    | some e => some e.program
    | none => if n = 0 then some factoryProgram0 else if n = 1 then some factoryProgram1 else none := by
  refine List.map_congr_left fun n hn => ?_
  cases l.find? fun e => decide (e.number = n) with
  | some e => rfl
  | none => exact factoryPrograms_at n (List.mem_range.mp hn)

theorem keepIf_some {α : Type} {p : α → Bool} {x : α} {P : Prop} [Decidable P] (h : p x = true ↔ P) :
    keepIf p (some x) = if P then some x else none := by
  by_cases hP : P
  · rw [if_pos hP]
    exact if_pos (h.mpr hP)
  · rw [if_neg hP]
    exact if_neg fun holds => hP (h.mp holds)

section
variable (g : Regions) (t : Store)

theorem readStore_settings {x : Settings} {y : MetSettings} (h : g.settings = some (x, y)) :
    (readStore g t).settings = x ∧ (readStore g t).metset = y := by
  simp [readStore, h]

theorem readStore_settings_none (h : g.settings = none) :
    (readStore g t).settings = {} ∧ (readStore g t).metset = {} := by
  simp [readStore, h]

theorem readStore_programs_none (h : g.programs = none) : (readStore g t).programs = factoryPrograms := by
  simp [readStore, h]

theorem readStore_programs {l : List ProgramEntry} (h : g.programs = some l) :
    (readStore g t).programs = programsAfter l := by
  simp [readStore, h]

theorem readStore_products_none (h : g.products = none) : (readStore g t).products = none := by
  simp [readStore, h, keepIf]

theorem readStore_products {l : List ProductEntry} (h : g.products = some l) : (readStore g t).products =
    if ∀ e ∈ l, ∃ k ∈ entriesOf g.curves, k.number = e.curve then some l else none := by
  simp only [readStore, h]
  exact keepIf_some (by simp)

theorem readStore_prices_none (h : g.prices = none) : (readStore g t).prices = none := by
  simp [readStore, h, keepIf]

theorem readStore_prices {l : List PriceList} (h : g.prices = some l) : (readStore g t).prices =
    if ∀ e ∈ entriesOf (readStore g t).products, ∃ p ∈ l, p.code = e.code then some l else none := by
  simp only [readStore, h]
  exact keepIf_some (by simp)

theorem readStore_nodes_none (h : g.nodes = none) : (readStore g t).nodes = none := by
  simp [readStore, h, keepIf]

theorem readStore_nodes {l : List NodeEntry} (h : g.nodes = some l) : (readStore g t).nodes =
    if ∀ n ∈ l, (∀ e ∈ entriesOf g.stations, e.address ≠ n.address) ∧
        (readStore g t).settings.printer ≠ n.address ∧ (readStore g t).settings.cab ≠ n.address
    then some l else none := by
  simp only [readStore, h]
  exact keepIf_some (by simp [and_assoc])

end

/-- Settles O14: the fold over the failing regions is `readRegions`, and the rest is what `readStore` makes of them. -/
theorem storeReadTakesUpTheRegions : Obligations.StoreReadTakesUpTheRegions := by
  intro s failing hp hr read old g
  obtain ⟨t, done, frame⟩ := event_is (f := storeReadDone failing) (s := s)
    (congrArg State.offLine (storeReadDone_eq (s := noteValues s) failing hp hr)) (by simp [noteValues, hp])
  have hstore : t.store = readStore g s.store := store_eq frame
  have hnv : t.nv = { s.nv with regions := g } := offLine_field frame (fun u => u.nv) fun _ => rfl
  refine ⟨t, done, hnv, ?_⟩
  rw [hstore, hnv]
  exact ⟨fun x y => readStore_settings g _, readStore_settings_none g _, rfl, rfl, rfl, readStore_programs_none g _,
    fun l h => (readStore_programs g _ h).trans (programsAfter_eq l), readStore_products_none g _,
    fun l => readStore_products g _, readStore_prices_none g _, fun l => readStore_prices g _,
    readStore_nodes_none g _, fun l => readStore_nodes g _, rfl, rfl, rfl, frame⟩

/-! ### What a reply rests on -/

/-- The C-bound queue, the requests in progress and the power state are as they were, so that a reply finds the place it
would have found. -/
structure AnswersAlike (s u : State) : Prop where
  queue : u.line.cq = s.line.cq
  requests : u.req = s.req
  power : u.power.state = s.power.state

theorem AnswersAlike.trans {s t u : State} (h : AnswersAlike s t) (k : AnswersAlike t u) : AnswersAlike s u :=
  ⟨k.queue.trans h.queue, k.requests.trans h.requests, k.power.trans h.power⟩

theorem answersAlike_modCh (c : Chan) (f : Channel → Channel) (s : State) : AnswersAlike s (modCh c f s) := by
  cases c <;> exact ⟨rfl, rfl, rfl⟩

theorem answersAlike_startF (s : State) : AnswersAlike s (startF s) := by
  unfold startF
  split
  · split <;> exact ⟨rfl, rfl, rfl⟩
  · exact ⟨rfl, rfl, rfl⟩

/-- Orders touch the F-bound side of the line only. -/
theorem answersAlike_placeOrder (c : Chan) (p : Pos) (n : Byte) (s : State) : AnswersAlike s (placeOrder c p n s) := by
  unfold placeOrder
  split
  · refine AnswersAlike.trans ?_ (answersAlike_startF _)
    exact ⟨rfl, rfl, rfl⟩
  · exact ⟨rfl, rfl, rfl⟩

theorem answersAlike_issueOrder (c : Chan) (p : Pos) (s : State) : AnswersAlike s (issueOrder c p s) := by
  unfold issueOrder
  split
  · exact (answersAlike_modCh c _ s).trans (answersAlike_placeOrder _ _ _ _)
  · exact ⟨rfl, rfl, rfl⟩

/-- An event that comes to a reply: the reply is placed, and apart from the line the state is that before the reply. -/
theorem event_answered {f : State → State} {s u o : State} {st : Byte} {p : InProgress} {r : Option RefCode} {x : Result}
    (hf : f (noteValues s) = reply st r x u) (hroom : AnswerRoom s) (hon : s.power.state = .on)
    (hp : s.req.inProgress.find? (fun q => q.station = st) = some p) (hk : AnswersAlike s u) (hu : u.offLine = o) :
    ∃ t, event f s = .next t ∧ Answered t st p.seq p.code r x ∧ t.offLine = o := by
  have hst : p.station = st := by simpa using List.find?_some hp
  subst hst
  have room : AnswerRoom u := by simpa [AnswerRoom, commonUsed, reservedUsed, hk.queue] using hroom
  have answered : Answered (reply p.station r x u) p.station p.seq p.code r x :=
    reply_answered room (by rw [hk.requests, hp]) r x
  have running : (reply p.station r x u).power.state ≠ .shutdown := by
    have : (reply p.station r x u).power.state = u.power.state :=
      offLine_field (by simp) (fun v => v.power.state) fun _ => rfl
    simp [this, hk.power, hon]
  refine ⟨finish (reply p.station r x u), by rw [event, hf], answered_finish running answered, ?_⟩
  rw [finish_offLine running, reply_offLine, hu]

/-! ### Classing the supply while ON (R199) -/

section
variable {s : State} (hon : s.power.state = .on)
include hon

theorem classSupply_same (h : classLevel s.store.settings s.power.level s.pins.voltage = s.power.level) :
    classSupply s = s := by
  simp only [classSupply, hon, h, bne_self_eq_false, Bool.false_and, Bool.false_eq_true, if_false]
  rfl

theorem classSupply_normal (hl : s.power.level = .low)
    (h : classLevel s.store.settings s.power.level s.pins.voltage = .normal) :
    classSupply s = modPower (fun p => { p with level := .normal }) s := by
  rw [hl] at h
  simp [classSupply, hon, hl, h]

theorem classSupply_low (hl : s.power.level = .normal)
    (h : classLevel s.store.settings s.power.level s.pins.voltage = .low) :
    classSupply s = handCauses .b [.supply] 0 (handCauses .a [.supply] 0
      (modPower (fun p => { p with level := .low }) s)) := by
  rw [hl] at h
  simp [classSupply, hon, hl, h]

end

/-! ### The end of the settings region's write (R39, R40, R189, R194) -/

/-- The settings and metrology settings with a write's new value. -/
def newSettings (s : State) (w : SettingsWrite) : Settings × MetSettings :=
  changed w.change s.store.settings s.store.metset

/-- The state in which a settings write's new value is stored and in force, and APPLY FACTOR's proposal cleared. -/
def settingsStored (s : State) (w : SettingsWrite) (rest : List SettingsWrite) : State :=
  { s with
    store := { s.store with
      settings := (newSettings s w).1, metset := (newSettings s w).2, settingsWrites := rest }
    nv := { s.nv with regions := { s.nv.regions with settings := some (newSettings s w) } }
    met := if w.factor = true then { s.met with proposal := none } else s.met }

/-- The state in which a settings write has failed: its region fails its check. -/
def settingsFailed (s : State) (rest : List SettingsWrite) : State :=
  { s with
    store := { s.store with settingsWrites := rest }
    nv := { s.nv with regions := { s.nv.regions with settings := none } } }

section
variable {s : State} {w : SettingsWrite} {rest : List SettingsWrite} (hon : s.power.state = .on)
  (hw : s.store.settingsWrites = w :: rest)
include hon hw

theorem settingsWriteEnded_stored : settingsWriteEnded true s =
    accept w.station (auditResult w.audit) (classSupply (settingsStored s w rest)) := by
  cases hfactor : w.factor <;>
    simp [settingsWriteEnded, hw, modRegions, hon, settingsWritten, settingsStored, newSettings, hfactor, modStore, modMet]

theorem settingsWriteEnded_failed : settingsWriteEnded false s =
    refuse w.station .storage (settingsFailed s rest) := by
  simp [settingsWriteEnded, hw, modRegions, hon, settingsWritten, settingsFailed, modStore]

/-- The new value leaves the supply's level: it is in force, and the request is answered. -/
theorem settingsEnd_same {p : InProgress} (hp : s.req.inProgress.find? (fun q => q.station = w.station) = some p)
    (hroom : AnswerRoom s)
    (hl : classLevel (newSettings s w).1 s.power.level s.pins.voltage = s.power.level) :
    ∃ t, exec (.storeWriteEnd .settings true) s = .next t ∧
      Answered t w.station p.seq p.code none (auditResult w.audit) ∧ t.offLine = (settingsStored s w rest).offLine := by
  have ended := settingsWriteEnded_stored (s := noteValues s) hon hw
  rw [classSupply_same (s := settingsStored (noteValues s) w rest) hon hl] at ended
  exact event_answered (f := regionWritten .settings true) ended hroom hon hp ⟨rfl, rfl, rfl⟩ rfl

/-- The new value classes the supply LOW: both contexts are handed SUPPLY. -/
theorem settingsEnd_low (hn : s.power.level = .normal)
    (hl : classLevel (newSettings s w).1 s.power.level s.pins.voltage = .low) :
    ∃ t, exec (.storeWriteEnd .settings true) s = .next t ∧ t.offLine = { (settingsStored s w rest).offLine with
      power := { s.power with level := .low, standby := none }
      chA := (handed (settingsStored s w rest) .a [.supply] 0).offLine
      chB := (handed (settingsStored s w rest) .b [.supply] 0).offLine } := by
  have ended := settingsWriteEnded_stored (s := noteValues s) hon hw
  rw [classSupply_low (s := settingsStored (noteValues s) w rest) hon hn hl] at ended
  refine event_is (f := regionWritten .settings true) (u := { settingsStored s w rest with
    power := { s.power with level := .low }
    chA := handed (settingsStored s w rest) .a [.supply] 0
    chB := handed (settingsStored s w rest) .b [.supply] 0 }) ?_ (by simp [hon])
  have same (c : Chan) : (handed (modPower (fun p => { p with level := .low })
      (settingsStored (noteValues s) w rest)) c [.supply] 0).offLine =
        (handed (settingsStored s w rest) c [.supply] 0).offLine := by
    refine handed_of ?_ ?_ _ _
    · cases c <;> rfl
    · rfl
  show (settingsWriteEnded true (noteValues s)).offLine = _
  rw [ended, accept_offLine, handBoth_offLine, same .a, same .b]
  rfl

/-- The new value classes the supply NORMAL. -/
theorem settingsEnd_normal (hn : s.power.level = .low)
    (hl : classLevel (newSettings s w).1 s.power.level s.pins.voltage = .normal) :
    ∃ t, exec (.storeWriteEnd .settings true) s = .next t ∧ t.offLine = { (settingsStored s w rest).offLine with
      power := { s.power with level := .normal, standby := none } } := by
  have ended := settingsWriteEnded_stored (s := noteValues s) hon hw
  rw [classSupply_normal (s := settingsStored (noteValues s) w rest) hon hn hl] at ended
  refine event_is (f := regionWritten .settings true) (u := { settingsStored s w rest with
    power := { s.power with level := .normal } }) ?_ (by simp [hon])
  show (settingsWriteEnded true (noteValues s)).offLine = _
  rw [ended, accept_offLine]
  rfl

/-- The write fails. -/
theorem settingsEnd_failed {p : InProgress} (hp : s.req.inProgress.find? (fun q => q.station = w.station) = some p)
    (hroom : AnswerRoom s) :
    ∃ t, exec (.storeWriteEnd .settings false) s = .next t ∧
      Answered t w.station p.seq p.code (some .storage) .nothing ∧ t.offLine = (settingsFailed s rest).offLine :=
  event_answered (f := regionWritten .settings false) (settingsWriteEnded_failed (s := noteValues s) hon hw) hroom hon
    hp ⟨rfl, rfl, rfl⟩ rfl

end

/-! ### What each setting changes (R39, R188) -/

theorem mem_allCauses (c : Cause) : c ∈ allCauses := by cases c <;> decide

/-- The alert mask is written as eleven bits: a cause's by its rank, and the lockout flag above them. -/
theorem changeSetting_alertMask (x : Settings) (v : Int) :
    let y := changeSetting .alertMask v x
    y = { x with maskCauses := y.maskCauses, maskLockout := v.toNat.testBit 10 } ∧
      ∀ c, c ∈ y.maskCauses ↔ v.toNat.testBit (rank c - 1) = true :=
  ⟨rfl, fun c => by simp [changeSetting, mem_allCauses]⟩

/-! ### A new node map resets the channels (R36) -/

/-- A channel that a new node map has reset, told of the state in which the map is active. -/
def resetChannel (s : State) (before after : List NodeEntry) (c : Chan) : Channel :=
  let x := s.ch c
  let y := { x with meter := { x.meter with
    baseline := if nodeChanged before after c .tally then none else x.meter.baseline
    probe := if nodeChanged before after c .probe then none else x.meter.probe
    vapour := if nodeChanged before after c .vapour then .unknown else x.meter.vapour
    reel := if nodeChanged before after c .reel then .unknown else x.meter.reel } }
  if nodeChanged before after c .valve then
    ordered s c .closed { y with gate := { y.gate with outstanding := none, timer := false } }
  else y

theorem resetNodes_offLine (before after : List NodeEntry) (c : Chan) (s : State) :
    (resetNodes before after c s).offLine = (s.setCh c (resetChannel s before after c)).offLine := by
  unfold resetNodes resetChannel
  dsimp only
  split
  · rw [issueOrder_offLine]
    cases c <;> rfl
  · rw [modMeter_eq]

theorem answersAlike_withdrawOrder (c : Chan) (s : State) : AnswersAlike s (withdrawOrder c s) := ⟨rfl, rfl, rfl⟩

theorem answersAlike_resetNodes (before after : List NodeEntry) (c : Chan) (s : State) :
    AnswersAlike s (resetNodes before after c s) := by
  unfold resetNodes
  dsimp only
  split
  · refine AnswersAlike.trans ?_ (answersAlike_issueOrder _ _ _)
    exact ((answersAlike_modCh c _ s).trans (answersAlike_modCh c _ _)).trans (answersAlike_withdrawOrder c _)
  · exact answersAlike_modCh c _ s

/-- What a reset makes of a channel rests on that channel and the node map. -/
theorem resetChannel_of {s u : State} {c : Chan} (hc : (u.ch c).offLine = (s.ch c).offLine)
    (hn : u.store.nodes = s.store.nodes) (before after : List NodeEntry) :
    (resetChannel u before after c).offLine = (resetChannel s before after c).offLine := by
  have node : nodeOf u c .valve = nodeOf s c .valve := by rw [nodeOf, hn, nodeOf]
  have key : ∀ v : State, (resetChannel v before after c).offLine =
      (resetChannel (v.setCh c (v.ch c).offLine) before after c).offLine := by
    intro v
    simp only [resetChannel, ordered, ch_setCh_same, nodeOf_setCh]
    split <;> (try split) <;> rfl
  rw [key u, key s, hc]
  simp only [resetChannel, ordered, ch_setCh_same, nodeOf_setCh, node]

theorem resetBoth_offLine (before after : List NodeEntry) (s : State) :
    (resetNodes before after .b (resetNodes before after .a s)).offLine =
      ((s.setCh .a (resetChannel s before after .a)).setCh .b (resetChannel s before after .b)).offLine := by
  have first := resetNodes_offLine before after .a s
  have second : (resetChannel (resetNodes before after .a s) before after .b).offLine =
      (resetChannel s before after .b).offLine :=
    resetChannel_of (ch_offLine_eq first .b) (congrArg Store.nodes (store_eq first)) _ _
  rw [resetNodes_offLine, setCh_congr first .b second]

theorem answersAlike_makeActive (t : TableData) (s : State) : AnswersAlike s (makeActive t s) := by
  cases t with
  | nodes l =>
    refine AnswersAlike.trans ?_ (answersAlike_resetNodes _ _ _ _)
    refine AnswersAlike.trans ?_ (answersAlike_resetNodes _ _ _ _)
    exact ⟨rfl, rfl, rfl⟩
  | _ => exact ⟨rfl, rfl, rfl⟩

/-! ### The end of a table's write (R35, R71) -/

/-- The state in which a table's write has ended: the staging area, the rest of the store and the regions as given. -/
def writeOver (s : State) (x : Staging) (store : Store) (g : Regions) : State :=
  { s with store := { store with staging := x, tableWrite := none }, nv := { s.nv with regions := g } }

theorem tableWriteEnded_eq {s : State} {w : TableWrite} {l : Load} {d : TableData} (hon : s.power.state = .on)
    (hw : s.store.tableWrite = some w) (hs : s.store.staging = .activating l) (hd : tableOf l.kind l.entries = some d)
    (ok : Bool) : tableWriteEnded l.kind ok s =
      tableWritten w d ok (writeOver s (.activating l) s.store (writeRegion d ok s.nv.regions)) := by
  simp [tableWriteEnded, hw, hs, hd, hon, modRegions, modStore, writeOver]

/-- Where a table's write succeeds, every table but a route becomes the active one and is answered. -/
theorem tableWritten_active {d : TableData} (h : ∀ x y, d ≠ .route x y) (w : TableWrite) (s : State) :
    tableWritten w d true s = accept w.station (auditResult w.audit)
      (modStore (fun x => { x with staging := .empty }) (makeActive d s)) := by
  cases d with
  | route x y => exact absurd rfl (h x y)
  | _ => rfl

theorem tableWritten_route_locked {s : State} (h : s.ctl.lockout ≠ .none) (w : TableWrite) (x : RouteHeader)
    (ds : List StagedDrop) : tableWritten w (.route x ds) true s = refuse w.station .lockout (refill s) := if_neg h

theorem tableWritten_route_open {s : State} (h : s.ctl.lockout = .none) (w : TableWrite) (x : RouteHeader)
    (ds : List StagedDrop) : tableWritten w (.route x ds) true s =
      handAppend (.manage w.station (routeOpenBody x ds.length)) s := if_pos h

section
variable {s : State} {w : TableWrite} {l : Load} {d : TableData} {p : InProgress} (hon : s.power.state = .on)
  (hw : s.store.tableWrite = some w) (hs : s.store.staging = .activating l)
  (hp : s.req.inProgress.find? (fun q => q.station = w.station) = some p) (hroom : AnswerRoom s)
  (hd : tableOf l.kind l.entries = some d)
include hon hw hs hp hroom hd

theorem tableEnd_failed : ∃ t, exec (.storeWriteEnd (.table l.kind) false) s = .next t ∧
    Answered t w.station p.seq p.code (some .storage) .nothing ∧
    t.offLine = (writeOver s (.filling l) s.store (writeRegion d false s.nv.regions)).offLine :=
  event_answered (f := regionWritten (.table l.kind) false) (tableWriteEnded_eq (s := noteValues s) hon hw hs hd false)
    hroom hon hp ⟨rfl, rfl, rfl⟩ rfl

theorem tableEnd_active (h : ∀ x y, d ≠ .route x y) : ∃ t, exec (.storeWriteEnd (.table l.kind) true) s = .next t ∧
    t.offLine = (modStore (fun x => { x with staging := .empty }) (makeActive d
      (writeOver (noteValues s) (.activating l) s.store (writeRegion d true s.nv.regions)))).offLine ∧
    Answered t w.station p.seq p.code none (auditResult w.audit) := by
  have ended := tableWriteEnded_eq (s := noteValues s) hon hw hs hd true
  rw [tableWritten_active h] at ended
  have alike := answersAlike_makeActive d
    (writeOver (noteValues s) (.activating l) s.store (writeRegion d true s.nv.regions))
  obtain ⟨t, done, answered, frame⟩ := event_answered (f := regionWritten (.table l.kind) true) ended hroom hon hp
    ⟨alike.queue, alike.requests, alike.power⟩ rfl
  exact ⟨t, done, frame, answered⟩

/-- A route's write that ends in lockout is refused, its content staged (notes/assumptions/26.md). -/
theorem routeEnd_locked {x : RouteHeader} {ds : List StagedDrop} (h : d = .route x ds) (hl : s.ctl.lockout ≠ .none) :
    ∃ t, exec (.storeWriteEnd (.table l.kind) true) s = .next t ∧
      Answered t w.station p.seq p.code (some .lockout) .nothing ∧
      t.offLine = (writeOver s (.filling l) s.store (writeRegion d true s.nv.regions)).offLine := by
  subst h
  have ended := tableWriteEnded_eq (s := noteValues s) hon hw hs hd true
  rw [tableWritten_route_locked (s := writeOver (noteValues s) _ _ _) hl] at ended
  exact event_answered (f := regionWritten (.table l.kind) true) ended hroom hon hp ⟨rfl, rfl, rfl⟩ rfl

end

/-! ### An event that changes no notice value (R63) -/

theorem settleNotice_quiet {c : Chan} {s : State} (h : (s.ch c).noticeRef = some (noticeOf s c)) :
    settleNotice c s = modCh c (fun x => { x with noticeRef := none }) s := by
  simp only [settleNotice, h, if_true]

/-- A channel's notice values rest on the channel and on the tables of products, prices and curves. -/
theorem noticeOf_of {s u : State} {c : Chan} (hc : u.ch c = s.ch c) (hp : u.store.products = s.store.products)
    (ht : u.store.prices = s.store.prices) (hk : u.store.curves = s.store.curves) : noticeOf u c = noticeOf s c := by
  simp only [noticeOf, liveGross, liveNet, liveFigure, liveDue, productVcf, productOf, curveOf, priceFor, tiersOf, hc, hp,
    ht, hk]

theorem noticeRef_noteValues (s : State) (c : Chan) :
    ((noteValues s).ch c).noticeRef = some (noticeOf (noteValues s) c) := by
  cases c <;> rfl

/-- Where both channels' notice values are as noted, what closes a command leaves the requests. -/
theorem finish_req_quiet {s : State} (hon : s.power.state = .on)
    (h : ∀ c, (s.ch c).noticeRef = some (noticeOf s c)) : (finish s).req = s.req := by
  have first := settleNotice_quiet (h .a)
  have second : settleNotice .b (settleNotice .a s) = modCh .b (fun x => { x with noticeRef := none })
      (settleNotice .a s) := by
    refine settleNotice_quiet ?_
    rw [first, noticeOf_of (s := s) (ch_modCh_other (by simp) _ s) (by simp) (by simp) (by simp),
      ch_modCh_other (by simp), h .b]
  unfold finish judgePowerOff
  rw [second, first, if_neg (by simp [hon])]
  rfl

/-- An event whose effect leaves the channels and those tables sends no notice, so that no reply finds a place. -/
theorem event_quiet {f : State → State} {s u : State} (hf : f (noteValues s) = u) (hon : u.power.state = .on)
    (hc : ∀ c, u.ch c = (noteValues s).ch c) (hp : u.store.products = s.store.products)
    (ht : u.store.prices = s.store.prices) (hk : u.store.curves = s.store.curves) :
    ∃ t, event f s = .next t ∧ t.req = u.req ∧ t.offLine = u.offLine := by
  have noted (c : Chan) : (u.ch c).noticeRef = some (noticeOf u c) := by
    rw [noticeOf_of (s := noteValues s) (hc c) hp ht hk, hc c, noticeRef_noteValues]
  exact ⟨finish u, by rw [event, hf], finish_req_quiet hon noted, finish_offLine (by simp [hon])⟩

/-- A route's write is followed by its ROUTE OPEN record, for which the request goes on waiting (R71). -/
theorem routeEnd_open {s : State} {w : TableWrite} {l : Load} {p : InProgress} {x : RouteHeader} {ds : List StagedDrop}
    (hon : s.power.state = .on) (hw : s.store.tableWrite = some w) (hs : s.store.staging = .activating l)
    (hp : p ∈ s.req.inProgress) (hd : tableOf l.kind l.entries = some (.route x ds)) (hl : s.ctl.lockout = .none) :
    ∃ t, exec (.storeWriteEnd (.table l.kind) true) s = .next t ∧ p ∈ t.req.inProgress ∧ t.offLine =
      (withAppend (writeOver s s.store.staging s.store (writeRegion (.route x ds) true s.nv.regions))
        (.manage w.station (routeOpenBody x ds.length))).offLine := by
  have ended := tableWriteEnded_eq (s := noteValues s) hon hw hs hd true
  rw [tableWritten_route_open (s := writeOver (noteValues s) _ _ _) hl] at ended
  obtain ⟨t, done, requests, frame⟩ := event_quiet (f := regionWritten (.table l.kind) true) ended hon
    (fun c => by cases c <;> rfl) rfl rfl rfl
  rw [hs]
  exact ⟨t, done, by rw [requests]; exact hp, frame⟩

/-- The channels that a new node map has reset, told of the state in which the write is over. -/
theorem makeActive_nodes_offLine (s : State) (l : Load) (es : List NodeEntry) (g : Regions) :
    let u := writeOver s .empty { s.store with nodes := some es } g
    (modStore (fun x => { x with staging := .empty }) (makeActive (.nodes es)
      (writeOver (noteValues s) (.activating l) s.store g))).offLine =
    ((u.setCh .a (resetChannel u (entriesOf s.store.nodes) es .a)).setCh .b
      (resetChannel u (entriesOf s.store.nodes) es .b)).offLine := by
  intro u
  let v := modStore (fun x => { x with nodes := some es }) (writeOver (noteValues s) (.activating l) s.store g)
  have channel (c : Chan) : (resetChannel v (entriesOf s.store.nodes) es c).offLine =
      (resetChannel u (entriesOf s.store.nodes) es c).offLine := by
    refine resetChannel_of ?_ ?_ _ _
    · cases c <;> rfl
    · rfl
  have reset := resetBoth_offLine (entriesOf s.store.nodes) es v
  rw [setCh_congr (setCh_congr rfl .a (channel .a)) .b (channel .b)] at reset
  exact congrArg (modStore fun x => { x with staging := .empty }) reset

/-- Settles O41: the settings region's write by the level that the new value classes the supply to, and a table's write by
its kind, the node map and the route apart from the others. -/
theorem storeWritesTakeEffect : Obligations.StoreWritesTakeEffect := by
  refine ⟨fun s w rest p hon hw hp hroom => ?_, fun x m v => ?_, fun s w l p hon hw hs hp hroom => ?_⟩
  · exact ⟨settingsEnd_same hon hw hp hroom, settingsEnd_low hon hw, settingsEnd_normal hon hw,
      settingsEnd_failed hon hw hp hroom⟩
  · exact ⟨⟨rfl, rfl, rfl, rfl, rfl, rfl, rfl, rfl, rfl, rfl, rfl, rfl⟩, changeSetting_alertMask x v,
      rfl, rfl, rfl, rfl, rfl, rfl⟩
  · have active {d : TableData} (hd : tableOf l.kind l.entries = some d) (h : ∀ x y, d ≠ .route x y) :=
      tableEnd_active hon hw hs hp hroom hd h
    have failed {d : TableData} (hd : tableOf l.kind l.entries = some d) :=
      tableEnd_failed hon hw hs hp hroom hd
    refine ⟨fun es hd => ⟨active hd (by simp), failed hd⟩, fun es hd => ⟨active hd (by simp), failed hd⟩,
      fun es hd => ⟨active hd (by simp), failed hd⟩, fun es hd => ⟨?_, failed hd⟩,
      fun es hd => ⟨active hd (by simp), failed hd⟩, fun es hd => ⟨?_, failed hd⟩,
      fun h ds hd => ⟨failed hd, routeEnd_locked hon hw hs hp hroom hd rfl,
        routeEnd_open hon hw hs (List.mem_of_find?_eq_some hp) hd⟩⟩
    · obtain ⟨t, done, frame, answered⟩ := active hd (by simp)
      rw [makeActive, programsAfter_eq] at frame
      exact ⟨t, done, frame, answered⟩
    · obtain ⟨t, done, frame, answered⟩ := active hd (by simp)
      exact ⟨t, done, frame.trans (makeActive_nodes_offLine s l es _), answered⟩

end Sys2Proof.Machine.LoadedTables

namespace Sys2Proof.Machine.HoldsAndLockout
open Sys2Proof.Machine.LoadedTables

/-! ### What a step is -/

/-- Every command, in every state, ends with what closes every command. -/
theorem exec_finishes (i : Instr) (s : State) : ∃ u, exec i s = .next (finish u) := by
  cases i <;> exact ⟨_, rfl⟩

/-- A step passes a millisecond over an empty queue, or ends with what closes every command. -/
theorem step_cases {s t : State} (h : step s = .next t) : (s.pending = [] ∧ t = idle s) ∨ ∃ u, t = finish u := by
  unfold step at h
  split at h
  · rename_i empty
    exact .inl ⟨empty, (Host.Outcome.next.inj h).symm⟩
  · rename_i i rest _
    obtain ⟨u, hu⟩ := exec_finishes i { s with pending := rest }
    exact .inr ⟨u, Host.Outcome.next.inj (h.symm.trans hu)⟩

/-! ### The alert line and the standby delay timer (R146, R200) -/

/-- What R146 asks of the state for the alert line to be asserted. -/
def AlertDue (s : State) : Prop := s.power.state ≠ .off ∧
  ((∃ c ∈ s.store.settings.maskCauses, c ∈ s.chA.ctx.causes ∨ c ∈ s.chB.ctx.causes) ∨
    s.ctl.lockout ≠ .none ∧ s.store.settings.maskLockout = true)

/-- What R200 asks of the state for the standby delay timer to run. -/
def StandbyDue (s : State) : Prop := s.power.state = .on ∧ s.pins.ignitionOn = false ∧ s.chA.ctx.state = .idle ∧
  s.chB.ctx.state = .idle ∧ s.req.inProgress = [] ∧ s.journal.waiting = [] ∧ s.journal.busy = .idle ∧
  s.journal.erasing = none ∧ s.store.settings.standbyDelay ≠ 0

theorem alertRule_iff (s : State) : alertRule s = true ↔ AlertDue s := by
  simp [alertRule, AlertDue]

theorem standbyReady_iff (s : State) : standbyReady s = true ↔ StandbyDue s := by
  simp [standbyReady, StandbyDue, and_assoc]

theorem alertKept_judgeAlert (u : State) : alertKept (judgeAlert u) := rfl

/-- The judgement of the standby delay timer changes nothing that the alert line rests on. -/
theorem alertKept_judgeStandby {u : State} (h : alertKept u) : alertKept (judgeStandby u) := h

theorem alertKept_finish (u : State) : alertKept (finish u) := alertKept_judgeStandby (alertKept_judgeAlert _)

theorem standbyKept_judgeStandby (u : State) : standbyKept (judgeStandby u) := by
  have same : standbyReady (judgeStandby u) = standbyReady u := rfl
  unfold standbyKept
  rw [same, judgeStandby]
  cases standbyReady u <;> rfl

theorem standbyKept_finish (u : State) : standbyKept (finish u) := standbyKept_judgeStandby _

/-- Settles O56: what closes a command judges both anew, and a millisecond without a command changes nothing that they
rest on. -/
theorem alertAndStandbyAreJudged : Obligations.AlertAndStandbyAreJudged := by
  intro s t h
  obtain ⟨-, rfl⟩ | ⟨u, rfl⟩ := step_cases h
  · exact ⟨id, id⟩
  · have alert : (finish u).ctl.alert = true ↔ AlertDue (finish u) :=
      (Bool.eq_iff_iff.mp (alertKept_finish u)).trans (alertRule_iff _)
    have standby : (finish u).power.standby.isSome = true ↔ StandbyDue (finish u) :=
      (Bool.eq_iff_iff.mp (standbyKept_finish u)).trans (standbyReady_iff _)
    exact ⟨fun _ => alert, fun _ => standby⟩

/-! ### A step without a command (notes/assumptions/2.md) -/

theorem step_empty {s : State} (empty : s.pending = []) : step s = .next (idle s) := by rw [step, empty]

/-- Settles O2: a step over an empty queue is the tick of both rest timers. -/
theorem emptyQueueAdvancesRestTimersOnly : Obligations.EmptyQueueAdvancesRestTimersOnly :=
  fun _ empty => step_empty empty

/-! ### The supply's crossings (R138, R199) -/

/-- The state in which the supply sense shows a voltage. -/
def sensed (s : State) (mv : Nat) : State := { s with pins := { s.pins with voltage := mv } }

section
variable {s : State} (run : s.power.state = .on ∨ s.power.state = .standby)
include run

theorem senseVoltage_running (mv : Nat) : senseVoltage mv s = classSupply (sensed s mv) := by
  rcases run with h | h <;> simp only [senseVoltage, h] <;> rfl

theorem notShutdown_running : s.power.state ≠ .shutdown := by
  rcases run with h | h <;> simp [h]

/-- The crossing to LOW hands SUPPLY to both contexts. -/
theorem classSupply_crossesLow (hn : s.power.level = .normal)
    (h : classLevel s.store.settings .normal s.pins.voltage = .low) :
    classSupply s = handCauses .b [.supply] 0 (handCauses .a [.supply] 0
      (modPower (fun p => { p with level := .low }) s)) := by
  rcases run with p | p <;> simp [classSupply, p, hn, h]

/-- The crossing to NORMAL changes the level alone. -/
theorem classSupply_crossesNormal (hl : s.power.level = .low)
    (h : classLevel s.store.settings .low s.pins.voltage = .normal) :
    classSupply s = modPower (fun p => { p with level := .normal }) s := by
  rcases run with p | p <;> simp [classSupply, p, hl, h]

variable {mv : Nat} (above : brownLevel s.store.settings < mv)
include above

theorem supplyLow_hands (hn : s.power.level = .normal) (low : mv < lowStep s.store.settings) :
    ∃ t, exec (.supplyLow mv) s = .next t ∧ t.offLine = { s.offLine with
      pins := { s.pins with voltage := mv }
      power := { s.power with level := .low, standby := none }
      chA := (handed s .a [.supply] 0).offLine
      chB := (handed s .b [.supply] 0).offLine } := by
  have level : classLevel s.store.settings .normal mv = .low := by
    simp [classLevel, low, Nat.not_le.mpr above]
  have effect := (senseVoltage_running (s := noteValues s) run mv).trans
    (classSupply_crossesLow (s := sensed (noteValues s) mv) run hn level)
  have same (c : Chan) : (handed (modPower (fun p => { p with level := .low }) (sensed (noteValues s) mv)) c
      [.supply] 0).offLine = (handed s c [.supply] 0).offLine := by
    refine handed_of ?_ ?_ _ _
    · cases c <;> rfl
    · rfl
  refine event_is (f := senseVoltage mv) (u := { s with
    pins := { s.pins with voltage := mv }
    power := { s.power with level := .low }
    chA := handed s .a [.supply] 0
    chB := handed s .b [.supply] 0 }) ?_ (notShutdown_running run)
  rw [effect, handBoth_offLine, same .a, same .b]
  rfl

theorem supplyNormal_levels (hl : s.power.level = .low)
    (high : lowStep s.store.settings + hysteresis s.store.settings ≤ mv) :
    ∃ t, exec (.supplyNormal mv) s = .next t ∧ t.offLine = { s.offLine with
      pins := { s.pins with voltage := mv }, power := { s.power with level := .normal, standby := none } } := by
  have level : classLevel s.store.settings .low mv = .normal := by
    simp [classLevel, high, Nat.not_le.mpr above]
  have effect := (senseVoltage_running (s := noteValues s) run mv).trans
    (classSupply_crossesNormal (s := sensed (noteValues s) mv) run hl level)
  refine event_is (f := senseVoltage mv) (u := { s with
    pins := { s.pins with voltage := mv }
    power := { s.power with level := .normal } }) ?_ (notShutdown_running run)
  rw [effect]
  rfl

end

theorem lowStep_v24 (x : Settings) : lowStep { x with system := .v24 } = 21000 + 1000 * x.lowStep := by
  simp only [lowStep, lowStep12]
  omega

/-- Settles O16: the two crossings by the level that the voltage is classed to, and the levels of each supply system. -/
theorem supplyCrossesLowAndNormal : Obligations.SupplyCrossesLowAndNormal :=
  ⟨fun _ _ run => ⟨fun hn above low => supplyLow_hands run above hn low,
    fun hl above high => supplyNormal_levels run above hl high⟩,
   fun x => ⟨rfl, rfl, rfl, rfl, rfl, lowStep_v24 x⟩⟩

/-! ### The metrology switch (R138, R186) -/

theorem switchOpens_open {s : State} (h : s.pins.switchOpen = true) : switchOpens s = s := by
  simp [switchOpens, h]

theorem switchOpens_off {s : State} (h : s.power.state = .off) (hc : s.pins.switchOpen = false) :
    switchOpens s = setSwitch true s := by
  simp [switchOpens, hc, setSwitch, h]

/-- At the change from CLOSED, METROLOGY is handed to both contexts. -/
theorem switchOpens_hands {s : State} (h : s.power.state ≠ .off) (hc : s.pins.switchOpen = false) :
    switchOpens s = handCauses .b [.metrology] 0 (handCauses .a [.metrology] 0 (setSwitch true s)) := by
  simp [switchOpens, hc, setSwitch, h]

section
variable {s : State} (run : s.power.state ≠ .shutdown)
include run

theorem switchOpen_hands (hc : s.pins.switchOpen = false) (hp : s.power.state ≠ .off) :
    ∃ t, exec .metrologySwitchOpen s = .next t ∧ t.offLine = { s.offLine with
      pins := { s.pins with switchOpen := true }
      chA := (handed s .a [.metrology] 0).offLine, chB := (handed s .b [.metrology] 0).offLine } := by
  have same (c : Chan) : (handed (setSwitch true (noteValues s)) c [.metrology] 0).offLine =
      (handed s c [.metrology] 0).offLine := by
    refine handed_of ?_ ?_ _ _
    · cases c <;> rfl
    · rfl
  refine event_is (f := switchOpens) (u := { s with
    pins := { s.pins with switchOpen := true }
    chA := handed s .a [.metrology] 0, chB := handed s .b [.metrology] 0 }) ?_ run
  rw [switchOpens_hands (s := noteValues s) hp hc, handBoth_offLine, same .a, same .b]
  rfl

theorem switchOpen_already (ho : s.pins.switchOpen = true) :
    ∃ t, exec .metrologySwitchOpen s = .next t ∧ t.offLine = s.offLine :=
  event_is (f := switchOpens) (u := noteValues s)
    (congrArg State.offLine (switchOpens_open (s := noteValues s) ho)) run

theorem switchOpen_off (hp : s.power.state = .off) :
    ∃ t, exec .metrologySwitchOpen s = .next t ∧
      t.offLine = { s.offLine with pins := { s.pins with switchOpen := true } } := by
  cases hc : s.pins.switchOpen with
  | false =>
    exact event_is (f := switchOpens) (u := setSwitch true (noteValues s))
      (congrArg State.offLine (switchOpens_off (s := noteValues s) hp hc)) run
  | true =>
    obtain ⟨t, done, frame⟩ := switchOpen_already run hc
    have stays : { s.pins with switchOpen := true } = s.pins := by rw [← hc]
    exact ⟨t, done, by rw [frame, stays]; rfl⟩

end

/-- Settles O19: opening the switch by where it stands and by the power state; closing it sets the input alone. -/
theorem metrologySwitchHandsMetrology : Obligations.MetrologySwitchHandsMetrology :=
  fun s run => ⟨switchOpen_hands run, switchOpen_off run, switchOpen_already run,
    event_is (f := setSwitch false) (u := setSwitch false s) rfl run⟩

/-! ### CLEAR HOLD (R143, R144) -/

theorem any_nonResumable (l : List Cause) : l.any nonResumable = true ↔ .tally ∈ l ∨ .metrology ∈ l := by
  simp only [List.any_eq_true, nonResumable, Bool.or_eq_true, decide_eq_true_eq, and_or_left, exists_or,
    exists_eq_right]

theorem restedLong_iff (s : State) (c : Chan) :
    restedLong s c = true ↔ ∃ n, (s.ch c).ctx.rest = some n ∧ s.store.settings.settleQuiet ≤ n := by
  unfold restedLong
  cases (s.ch c).ctx.rest <;> simp

/-- CLEAR HOLD where TALLY or METROLOGY is latched. -/
theorem clearHoldNow_latched {s : State} {c : Chan} (h : (s.ch c).ctx.causes.any nonResumable = true) (st : Byte) :
    clearHoldNow c st s = reply st (some .state) (.causes (s.ch c).ctx.causes) s := if_pos h

section
variable {s : State} {c : Chan} (h : (s.ch c).ctx.causes.any nonResumable = false) (st : Byte)
include h

theorem clearHoldNow_releases (hl : causesLeft s c = []) :
    clearHoldNow c st s = produceNotice c (accept st .nothing (leaveHeld c s)) := by
  rw [clearHoldNow, if_neg (by simp [h])]
  simp [hl]

theorem clearHoldNow_holds (hl : causesLeft s c ≠ []) :
    clearHoldNow c st s = reply st (some .hold) (.causes (causesLeft s c))
      (modCtx c (fun x => { x with causes := causesLeft s c }) s) := by
  rw [clearHoldNow, if_neg (by simp [h])]
  simp [hl]

end

/-- A request that has ended stays ended when a notice is produced. -/
theorem answered_produceNotice {s : State} {c : Chan} {st q k : Byte} {r : Option RefCode} {x : Result}
    (h : Answered s st q k r x) : Answered (produceNotice c s) st q k r x :=
  ⟨placedC_produceNotice rfl h.placed, fun p hp => h.ended p (onlyEnds_produceNotice c s p hp)⟩

/-- An admitted station's request whose owner replies and then produces a channel's notice. -/
theorem admitted_answered_noticed {s u : State} {src seq code : Byte} {k need : Cls} {owner : Owner}
    {r : Option RefCode} {x : Result} {c : Chan} (h : Admitted s src k need) (hc : requiredClass code = some need)
    (ho : owner src (actingClass s k) (taken s src code seq k) = produceNotice c (reply src r x u))
    (hu : AnswersAlike (taken s src code seq k) u) :
    ∃ t, event (takeRequest src seq code owner) s = .next t ∧ Answered t src seq code r x ∧ t.offLine = u.offLine := by
  have told : (produceNotice c (reply src r x u)).offLine = u.offLine := by simp
  have room : AnswerRoom u := by simpa [AnswerRoom, commonUsed, reservedUsed, hu.queue] using h.room
  have answered : Answered (reply src r x u) src seq code r x :=
    reply_answered (p := { station := src, code := code, seq := seq, cls := actingClass s k }) room
      (by rw [hu.requests]; exact find_taken h.free) r x
  have running : (produceNotice c (reply src r x u)).power.state ≠ .shutdown := by
    rw [offLine_field told (fun v => v.power.state) fun _ => rfl, hu.power, taken_power, h.on]
    simp
  refine ⟨finish (produceNotice c (reply src r x u)), ?_, answered_finish running (answered_produceNotice answered), ?_⟩
  · rw [event, takeRequest_ready h.toReady hc h.allowed, ho]
  · rw [finish_offLine running, told]

section
variable {s : State} {st q : Byte} {k : Cls} {c : Chan} (h : Admitted s st k .driver) (hn : s.ctl.lockout = .none)
  (hm : (s.ch c).ctx.mode = .proving → actingClass s k = .metrology) (hs : (s.ch c).ctx.state = .held)

include hn hm hs in
/-- The checks of CLEAR HOLD pass. -/
theorem ownClearHold_acts : ownClearHold (some c) st (actingClass s k) (taken s st 0x12 q k) =
    clearHoldNow c st (taken s st 0x12 q k) := by
  refine checked_acts ?_ _ _ _
  have class_ok : onlyIf (decide ((s.ch c).ctx.mode = .proving)) (decide (actingClass s k = .metrology)) = true := by
    simpa [onlyIf, Classical.or_iff_not_imp_left] using hm
  simp [firstRefusal, (notLocked_iff s).mpr hn, provingClass, class_ok, hs]

theorem causesLeft_taken : causesLeft (taken s st 0x12 q k) c = causesLeft s c := by
  simp only [causesLeft, taken_ctx, taken_conditionGone]

include h hn hm hs

theorem clearHold_latched (hl : (s.ch c).ctx.causes.any nonResumable = true) :
    ∃ t, exec (.clearHold st q (some c)) s = .next t ∧
      Answered t st q 0x12 (some .state) (.causes (s.ch c).ctx.causes) ∧ t.offLine = s.offLine := by
  refine admitted_answered (u := taken s st 0x12 q k) h rfl ?_ rfl rfl h.on rfl
  rw [ownClearHold_acts hn hm hs, clearHoldNow_latched (by rwa [taken_ctx]), taken_ctx]

variable (hr : (s.ch c).ctx.causes.any nonResumable = false)
include hr

theorem clearHold_releases (hl : causesLeft s c = []) :
    ∃ t, exec (.clearHold st q (some c)) s = .next t ∧ Answered t st q 0x12 none .nothing ∧
      t.offLine = (s.setCh c { s.ch c with
        ctx := { (s.ch c).ctx with causes := [], state := .paused, rest := none, primary := none }
        meter := { (s.ch c).meter with creep := 0, creepMark := false } }).offLine := by
  have owner : ownClearHold (some c) st (actingClass s k) (taken s st 0x12 q k) =
      produceNotice c (reply st none .nothing (leaveHeld c (taken s st 0x12 q k))) := by
    rw [ownClearHold_acts hn hm hs, clearHoldNow_releases (by rwa [taken_ctx]) st (by rwa [causesLeft_taken])]
    rfl
  have alike : AnswersAlike (taken s st 0x12 q k) (leaveHeld c (taken s st 0x12 q k)) := by
    cases c <;> exact ⟨rfl, rfl, rfl⟩
  obtain ⟨t, done, answered, frame⟩ := admitted_answered_noticed (seq := q) h rfl owner alike
  refine ⟨t, done, answered, frame.trans ?_⟩
  cases c <;> rfl

theorem clearHold_holds (hl : causesLeft s c ≠ []) :
    ∃ t, exec (.clearHold st q (some c)) s = .next t ∧
      Answered t st q 0x12 (some .hold) (.causes (causesLeft s c)) ∧
      t.offLine = (s.setCh c { s.ch c with ctx := { (s.ch c).ctx with causes := causesLeft s c } }).offLine := by
  refine admitted_answered (u := modCtx c (fun x => { x with causes := causesLeft s c }) (taken s st 0x12 q k)) h rfl ?_
    (by simp) (by simp) (by simp [h.on]) ?_
  · rw [ownClearHold_acts hn hm hs, clearHoldNow_holds (by rwa [taken_ctx]) st (by rwa [causesLeft_taken]),
      causesLeft_taken]
  · cases c <;> rfl

end

/-- Settles O52: a latched TALLY or METROLOGY, or else whether a cause is left, decides the outcome; each cause's
condition is read off the block that holds it. -/
theorem holdsAreCleared : Obligations.HoldsAreCleared := by
  intro s st q k c h hn hm hs x run left
  refine ⟨fun latched => clearHold_latched h hn hm hs ((any_nonResumable _).mpr latched), fun ht hme => ?_, ?_⟩
  · have resumable : (s.ch c).ctx.causes.any nonResumable = false := by
      rw [← Bool.not_eq_true, any_nonResumable]
      exact not_or.mpr ⟨ht, hme⟩
    exact ⟨clearHold_releases h hn hm hs resumable, clearHold_holds h hn hm hs resumable⟩
  · refine ⟨?_, ?_, rfl, restedLong_iff s c, ?_, rfl, ?_, rfl⟩ <;> simp [conditionGone]

/-! ### The appends of a CLEAR LOCKOUT (R152) -/

/-- The AUDIT record at whose commit the lockout ends, counting the records committed (notes/assumptions/64.md). -/
def lockoutEnd (st : Byte) (n : Nat) : Append := .manage st (.audit
  { change := .lockoutClear, counter := .configuration, station := st, old := .storageLockout, new := .noLockout
    provingSeq := 0, observed := 0, committed := n })

/-- The append a CLEAR LOCKOUT hands next: the oldest FAULTED context's record, or else the AUDIT record. -/
def nextClearing (faulted : List Chan) (k : Clearing) : Append :=
  match faulted with
  | c :: _ => .close c
  | [] => lockoutEnd k.station k.committed.length

theorem clearNext_eq {s : State} {k : Clearing} (h : s.ctl.clearing = some k) :
    clearNext s = withAppend s (nextClearing s.ctl.faultOrder k) := by
  unfold clearNext nextClearing
  rw [h]
  dsimp only
  cases s.ctl.faultOrder <;> rfl

/-- A committed record joins the list of the CLEAR LOCKOUT, and its next append is handed. -/
theorem clearCommitted_eq {s : State} {x : Clearing} (h : s.ctl.clearing = some x) (c : Chan) (number : Nat) :
    clearCommitted c number s =
      withAppend { s with ctl := { s.ctl with clearing := some { x with committed := x.committed ++ [(c, number)] } } }
        (nextClearing s.ctl.faultOrder { x with committed := x.committed ++ [(c, number)] }) := by
  unfold clearCommitted
  rw [h]
  exact clearNext_eq rfl

/-! ### CLEAR LOCKOUT is requested -/

section
variable {s : State} {st q : Byte} {k : Cls} (h : Admitted s st k .metrology)
include h

theorem clearLockout_refused (hl : s.ctl.lockout ≠ .storage) :
    ∃ t, exec (.clearLockout st q) s = .next t ∧ Answered t st q 0x54 (some .state) .nothing ∧ t.offLine = s.offLine := by
  refine admitted_refused h rfl (checked_refuses ?_ _ _ _)
  cases hk : s.ctl.lockout with
  | storage => exact absurd hk hl
  | none => simp [clearLockoutChecks, firstRefusal, notLocked, hk]
  | reconstruction => simp [clearLockoutChecks, firstRefusal, notLocked, hk]

theorem clearLockout_begins (hl : s.ctl.lockout = .storage) (hc : s.ctl.clearing = none)
    (hp : ∀ p ∈ s.req.inProgress, p.code ≠ 0x54) :
    ∃ t, exec (.clearLockout st q) s = .next t ∧ Waits t st 0x54 q .metrology ∧
      t.offLine = (withAppend { s with ctl := { s.ctl with clearing := some { station := st, committed := [] } } }
        (nextClearing s.ctl.faultOrder { station := st, committed := [] })).offLine := by
  have passes : firstRefusal (clearLockoutChecks (taken s st 0x54 q k) st) = none := by
    rw [clearLockoutChecks, taken_otherInProgress hp]
    simp [firstRefusal, notLocked, hl, hc]
  have owner : ownClearLockout st (actingClass s k) (taken s st 0x54 q k) =
      withAppend { taken s st 0x54 q k with
        ctl := { s.ctl with clearing := some { station := st, committed := [] } } }
        (nextClearing s.ctl.faultOrder { station := st, committed := [] }) :=
    (checked_acts passes _ _ _).trans (clearNext_eq rfl)
  obtain ⟨t, done, waits, frame⟩ := admitted_waits h rfl owner rfl rfl h.on rfl
  rw [admitted_metrology h] at waits
  exact ⟨t, done, waits, frame⟩

end

/-! ### A record has committed (R172) -/

@[simp] theorem commitRecord_power (r : Record) (b n : Nat) (s : State) : (commitRecord r b n s).power = s.power := rfl
@[simp] theorem ch_commitRecord (r : Record) (b n : Nat) (s : State) (c : Chan) :
    (commitRecord r b n s).ch c = s.ch c := by cases c <;> rfl

theorem anchorsAfter_waiting (seq : Nat) (b : Body) (j : Journal) : (anchorsAfter seq b j).waiting = j.waiting := by
  cases b <;> rfl

@[simp] theorem commitRecord_waiting (r : Record) (b n : Nat) (s : State) :
    (commitRecord r b n s).journal.waiting = s.journal.waiting := anchorsAfter_waiting _ _ _

theorem programEnded_commits {s : State} {a : Append} {r : Record} {block slot : Nat} {retry : Bool}
    (h : s.journal.busy = .programming a r block slot retry) (left : SlotLeft) (report : RetireReport) :
    programEnded true left report s = committed a r (commitRecord r block slot s) := by
  simp only [programEnded, h, if_true]

/-! ### Prints and the return to IDLE keep requests in progress (R110, R195) -/

theorem goesOn_sendPrint (p : InProgress) (x : Print) (s : State) : GoesOn p s (sendPrint x s) :=
  (goesOn_putPrint p x s).trans (goesOn_startC _ _)

theorem goesOn_modCh (p : InProgress) (c : Chan) (f : Channel → Channel) (s : State) : GoesOn p s (modCh c f s) :=
  GoesOn.of_eq (by rw [modCh_line]) (modCh_req _ _ _)

theorem goesOn_toIdle (p : InProgress) (c : Chan) (s : State) : GoesOn p s (toIdle c s) := by
  unfold toIdle
  refine GoesOn.trans (t := produceNotice c _) ?_ (goesOn_modCh p c _ _)
  refine GoesOn.trans (t := modCtl _ _) (GoesOn.of_eq ?_ ?_) (goesOn_produceNotice _ _ _) <;> cases c <;> rfl

/-! ### What the return to IDLE leaves (R86) -/

theorem toIdle_ctx (c : Chan) (s : State) : ((toIdle c s).ch c).ctx.state = .idle := by
  have told := congrArg (fun u : State => (u.ch c).ctx.state) (toIdle_offLine c s)
  rw [ch_offLine, ch_offLine, ch_setCh_same] at told
  exact told

theorem toIdle_journal (c : Chan) (s : State) : (toIdle c s).journal = s.journal :=
  (congrArg State.journal (toIdle_offLine c s)).trans (by cases c <;> rfl)

theorem toIdle_powerState (c : Chan) (s : State) : (toIdle c s).power.state = s.power.state :=
  (congrArg (fun u : State => u.power.state) (toIdle_offLine c s)).trans (by cases c <;> rfl)

theorem toIdle_lockout (c : Chan) (s : State) : (toIdle c s).ctl.lockout = s.ctl.lockout :=
  (congrArg (fun u : State => u.ctl.lockout) (toIdle_offLine c s)).trans (by cases c <;> rfl)

theorem toIdle_clearing (c : Chan) (s : State) : (toIdle c s).ctl.clearing = s.ctl.clearing :=
  (congrArg (fun u : State => u.ctl.clearing) (toIdle_offLine c s)).trans (by cases c <;> rfl)

/-- The channel leaves the order of the FAULTED ones. -/
theorem toIdle_faultOrder (c : Chan) (s : State) :
    (toIdle c s).ctl.faultOrder = s.ctl.faultOrder.filter fun d => decide (d ≠ c) := by
  have told := congrArg (fun u : State => u.ctl.faultOrder) (toIdle_offLine c s)
  refine told.trans (Eq.trans (b := s.ctl.faultOrder.filter fun d => d != c) (by cases c <;> rfl) ?_)
  exact List.filter_congr fun d _ => by cases d <;> cases c <;> rfl

/-! ### A channel's record commits in a CLEAR LOCKOUT (R107, R113, R152) -/

/-- From `u` to `v` the steps after a commit that come before the return to IDLE have run: the ticket controller as a
whole and the journal are as they were, and requests to which no reply waits go on. -/
structure BooksTaken (u v : State) : Prop where
  lockout : v.ctl.lockout = u.ctl.lockout
  faultOrder : v.ctl.faultOrder = u.ctl.faultOrder
  clearing : v.ctl.clearing = u.ctl.clearing
  journal : v.journal = u.journal
  power : v.power.state = u.power.state
  requests : ∀ p, GoesOn p u v

theorem BooksTaken.trans {u v w : State} (h : BooksTaken u v) (k : BooksTaken v w) : BooksTaken u w :=
  ⟨k.lockout.trans h.lockout, k.faultOrder.trans h.faultOrder, k.clearing.trans h.clearing,
    k.journal.trans h.journal, k.power.trans h.power, fun p => (h.requests p).trans (k.requests p)⟩

theorem booksTaken_sendPrint (x : Print) (s : State) : BooksTaken s (sendPrint x s) where
  lockout := offLine_field (sendPrint_offLine x s) (fun v => v.ctl.lockout) fun _ => rfl
  faultOrder := offLine_field (sendPrint_offLine x s) (fun v => v.ctl.faultOrder) fun _ => rfl
  clearing := offLine_field (sendPrint_offLine x s) (fun v => v.ctl.clearing) fun _ => rfl
  journal := offLine_field (sendPrint_offLine x s) (fun v => v.journal) fun _ => rfl
  power := offLine_field (sendPrint_offLine x s) (fun v => v.power.state) fun _ => rfl
  requests := fun p => goesOn_sendPrint p x s

/-- The commit of a ticket that nobody waits for. -/
theorem commitTicket_unasked {s : State} {c : Chan} (hq : (s.ch c).ctx.requester = none) (r : Record) (n : Nat)
    (t : TicketBody) : ∃ v, commitTicket c r n t s = clearCommitted c n (toIdle c v) ∧ BooksTaken s v := by
  have booked : BooksTaken s (applyDelivery t (s.ch c).ctx.reservation (applyTicket n t s)) :=
    ⟨rfl, rfl, rfl, rfl, rfl, fun _ => GoesOn.of_eq rfl rfl⟩
  unfold commitTicket
  rw [hq]
  dsimp only
  split
  · exact ⟨_, rfl, booked⟩
  · exact ⟨_, rfl, booked.trans (booksTaken_sendPrint _ _)⟩

/-- The commit of a proving run that nobody waits for. -/
theorem commitProving_unasked {s : State} {c : Chan} (hq : (s.ch c).ctx.requester = none) (r : Record)
    (p : ProvingBody) : ∃ v, commitProving c r p s = clearCommitted c r.seq (toIdle c v) ∧ BooksTaken s v := by
  unfold commitProving
  rw [hq]
  exact ⟨_, rfl, rfl, rfl, rfl, rfl, rfl, fun _ => GoesOn.of_eq rfl rfl⟩

theorem committed_close_unasked {s : State} {c : Chan} {r : Record} {number : Nat}
    (hq : (s.ch c).ctx.requester = none)
    (hb : (∃ b, r.body = .ticket number b) ∨ ∃ b, r.body = .proving b ∧ number = r.seq) :
    ∃ v, committed (.close c) r s = clearCommitted c number (toIdle c v) ∧ BooksTaken s v := by
  unfold committed
  obtain ⟨b, hr⟩ | ⟨b, hr, rfl⟩ := hb <;> rw [hr]
  · exact commitTicket_unasked hq r number b
  · exact commitProving_unasked hq r b

/-- A channel's record commits, and its context returns to IDLE: the CLEAR LOCKOUT goes on with its next append. -/
theorem closeCommit_continues {s : State} {c : Chan} {r : Record} {number block slot : Nat} {retry : Bool}
    {x : Clearing} (left : SlotLeft) (report : RetireReport) (hon : s.power.state = .on)
    (hj : s.journal.busy = .programming (.close c) r block slot retry)
    (hb : (∃ b, r.body = .ticket number b) ∨ ∃ b, r.body = .proving b ∧ number = r.seq)
    (hc : s.ctl.clearing = some x) (hq : (s.ch c).ctx.requester = none) :
    let rest := s.ctl.faultOrder.filter fun d => decide (d ≠ c)
    let y : Clearing := { x with committed := x.committed ++ [(c, number)] }
    ∃ t, exec (.recordProgramEnd true left report) s = .next t ∧ (t.ch c).ctx.state = .idle ∧
      t.ctl.lockout = s.ctl.lockout ∧ t.ctl.faultOrder = rest ∧ t.ctl.clearing = some y ∧
      t.journal.waiting = s.journal.waiting ++ [nextClearing rest y] ∧
      (s.line.cwait = [] → ∀ p ∈ s.req.inProgress, p ∈ t.req.inProgress) := by
  intro rest y
  have unasked : ((commitRecord r block slot (noteValues s)).ch c).ctx.requester = none := by
    rw [ch_commitRecord]
    cases c <;> exact hq
  obtain ⟨v, hv, books⟩ := committed_close_unasked unasked hb
  have clearing : (toIdle c v).ctl.clearing = some x :=
    (toIdle_clearing c v).trans (books.clearing.trans hc)
  have order : (toIdle c v).ctl.faultOrder = rest := by
    rw [toIdle_faultOrder, books.faultOrder]
    rfl
  have lockout : (toIdle c v).ctl.lockout = s.ctl.lockout :=
    (toIdle_lockout c v).trans books.lockout
  have waiting : (toIdle c v).journal.waiting = s.journal.waiting := by
    rw [toIdle_journal, books.journal, commitRecord_waiting]
    rfl
  let handedOn := withAppend { toIdle c v with ctl := { (toIdle c v).ctl with clearing := some y } } (nextClearing rest y)
  have effect : programEnded true left report (noteValues s) = handedOn := by
    rw [programEnded_commits (s := noteValues s) hj, hv, clearCommitted_eq clearing, order]
  have running : handedOn.power.state ≠ .shutdown := by
    show (toIdle c v).power.state ≠ .shutdown
    rw [toIdle_powerState, books.power, commitRecord_power, show (noteValues s).power = s.power from rfl, hon]
    simp
  have frame := finish_offLine running
  have field {α : Type} (g : State → α) (hg : ∀ u : State, g u = g u.offLine) : g (finish handedOn) = g handedOn :=
    offLine_field frame g hg
  refine ⟨finish handedOn, by rw [← effect]; rfl, ?_, ?_, ?_, ?_, ?_, ?_⟩
  · rw [field (fun u => (u.ch c).ctx.state) fun u => by rw [ch_offLine]; rfl]
    exact Eq.trans (by cases c <;> rfl) (toIdle_ctx c v)
  · exact (field (fun u => u.ctl.lockout) fun _ => rfl).trans lockout
  · exact (field (fun u => u.ctl.faultOrder) fun _ => rfl).trans order
  · exact field (fun u => u.ctl.clearing) fun _ => rfl
  · exact (field (fun u => u.journal.waiting) fun _ => rfl).trans (congrArg (· ++ [nextClearing rest y]) waiting)
  · intro none_waits p hp
    have begun : GoesOn p s (commitRecord r block slot (noteValues s)) := GoesOn.of_eq rfl rfl
    have handing : GoesOn p (toIdle c v) handedOn := GoesOn.of_eq rfl rfl
    have course : GoesOn p s (finish handedOn) :=
      (((begun.trans (books.requests p)).trans (goesOn_toIdle p c v)).trans handing).trans (goesOn_finish p running)
    exact (course fun _ hr => by rw [none_waits] at hr; cases hr).2 hp

/-! ### The AUDIT record commits (R152, R189) -/

/-- The commit of CLEAR LOCKOUT's AUDIT record ends the lockout and answers the request. -/
theorem committed_lockoutClear {s : State} {r : Record} {b : AuditBody} {x : Clearing} (hon : s.power.state = .on)
    (hr : r.body = .audit b) (hb : b.change = .lockoutClear) (hc : s.ctl.clearing = some x) (st : Byte) (y : Body) :
    committed (.manage st y) r s = accept st (.cleared x.committed r.seq) { s with
      met := { s.met with cal := r.cal, cfg := r.cfg }
      ctl := { s.ctl with lockout := .none, clearing := none } } := by
  unfold committed
  dsimp only
  rw [takeCounters_audit hr, endLockout_clear hr hb, if_neg (by simp [hon]), commitManage, hr]
  simp only [commitAudit, hb, hc]
  rfl

theorem auditCommit_ends {s : State} {st : Byte} {r : Record} {b : AuditBody} {block slot : Nat} {retry : Bool}
    {x : Clearing} (left : SlotLeft) (report : RetireReport) (hon : s.power.state = .on)
    (hj : s.journal.busy = .programming (.manage st r.body) r block slot retry) (hr : r.body = .audit b)
    (hb : b.change = .lockoutClear) (hc : s.ctl.clearing = some x) :
    ∃ t, exec (.recordProgramEnd true left report) s = .next t ∧
      t.offLine = { (commitRecord r block slot s).offLine with
        met := { s.met with cal := r.cal, cfg := r.cfg }
        ctl := { s.ctl with lockout := .none, clearing := none, alert := false } } ∧
      ∀ p, s.req.inProgress.find? (fun q => q.station = st) = some p → AnswerRoom s →
        Answered t st p.seq p.code none (.cleared x.committed r.seq) := by
  have effect := (programEnded_commits (s := noteValues s) hj left report).trans
    (committed_lockoutClear (s := commitRecord r block slot (noteValues s)) hon hr hb hc st r.body)
  let ended : State := { commitRecord r block slot (noteValues s) with
    met := { s.met with cal := r.cal, cfg := r.cfg }
    ctl := { s.ctl with lockout := .none, clearing := none } }
  obtain ⟨t, done, frame⟩ := event_is (f := programEnded true left report) (s := s) (u := ended)
    ((congrArg State.offLine effect).trans (accept_offLine _ _ _)) (by
      show s.power.state ≠ .shutdown
      simp [hon])
  refine ⟨t, done, frame, fun p hp hroom => ?_⟩
  obtain ⟨t', done', answered, -⟩ := event_answered (f := programEnded true left report) effect hroom hon hp
    ⟨rfl, rfl, rfl⟩ rfl
  cases Host.Outcome.next.inj (done.symm.trans done')
  exact answered

/-! ### An append of a CLEAR LOCKOUT fails (R152, R173) -/

theorem modCtx_self {s : State} {c : Chan} {f : Ctx → Ctx} (h : f (s.ch c).ctx = (s.ch c).ctx) : modCtx c f s = s := by
  rw [modCtx_eq, h]
  exact setCh_ch s c

/-- The appends that a CLEAR LOCKOUT hands: its AUDIT record, and the record of a FAULTED context that nobody else
retries. -/
def HandsOn (s : State) (a : Append) : Prop :=
  (∃ st n, a = lockoutEnd st n) ∨
    ∃ c, a = .close c ∧ (s.ch c).ctx.state = .faulted ∧ (s.ch c).ctx.requester = none ∧
      (s.ch c).ctx.retryMark = false ∧ (s.ch c).ctx.pending.isSome

theorem failClose_faulted {s : State} {c : Chan} (hf : (s.ch c).ctx.state = .faulted)
    (hq : (s.ch c).ctx.requester = none) (hr : (s.ch c).ctx.retryMark = false) (code : RefCode) :
    failClose c code s = clearFailed code s := by
  unfold failClose
  rw [hf]
  dsimp only
  rw [modCtx_self (f := fun x => { x with retryMark := false }) (by rw [← hr]), answerRequester, hq,
    modCtx_self (f := fun x => { x with requester := none }) (by rw [← hq])]

/-- The failure ends the request with the records committed so far, and nothing else at the append's source. -/
theorem failAppend_handsOn {s : State} {a : Append} {x : Clearing} (ha : HandsOn s a) (hc : s.ctl.clearing = some x)
    (code : RefCode) : failAppend code a s = reply x.station (some code) (.committed x.committed)
      { s with ctl := { s.ctl with clearing := none } } := by
  have failed : clearFailed code s = reply x.station (some code) (.committed x.committed)
      { s with ctl := { s.ctl with clearing := none } } := by
    rw [clearFailed, hc]
    rfl
  obtain ⟨st, n, rfl⟩ | ⟨c, rfl, hf, hq, hr, -⟩ := ha
  · exact failed
  · exact (failClose_faulted hf hq hr code).trans failed

/-- In lockout a failed append is followed by no other lockout. -/
theorem appendFailed_handsOn {s : State} {a : Append} {x : Clearing} (ha : HandsOn s a) (hc : s.ctl.clearing = some x)
    (hl : s.ctl.lockout = .storage) : appendFailed a s = reply x.station (some .storage) (.committed x.committed)
      { s with ctl := { s.ctl with clearing := none } } := by
  have locked : (failAppend .storage a s).ctl.lockout ≠ .none := by
    rw [failAppend_handsOn ha hc, offLine_field (reply_offLine _ _ _ _) (fun u => u.ctl.lockout) fun _ => rfl, hl]
    simp
  unfold appendFailed
  dsimp only
  rw [if_neg (by simp [locked]), failAppend_handsOn ha hc]

/-- Retiring a block writes the array and the journal's working memory alone. -/
theorem retire_frame (b : Nat) (cause : RetireCause) (failed : Option Nat) (report : RetireReport) (s : State) :
    ∃ nv j, retire b cause failed report s = { s with nv := nv, journal := j } := by
  unfold retire
  cases report.markOk <;> exact ⟨_, _, rfl⟩

/-- What a fresh block is after a retirement rests on the block table, the retired block's row changed. -/
theorem freshBlock_retire (b : Nat) (cause : RetireCause) (failed : Option Nat) (report : RetireReport) (s : State) :
    freshBlock (retire b cause failed report s) =
      freshBlock (modInfo b (fun i => { i with state := .retired, writePoint := 0 }) s) := by
  unfold retire
  cases report.markOk <;> rfl

/-- A failed program that is a retry, or finds no fresh block, fails its append (R173). -/
theorem programEnded_fails {s : State} {a : Append} {r : Record} {block slot : Nat} {retry : Bool}
    (hj : s.journal.busy = .programming a r block slot retry) (left : SlotLeft) (report : RetireReport)
    (h : retry = true ∨
      freshBlock (retire block .program (some slot) report (setSlot block slot (leftSlot r left) s)) = none) :
    ∃ nv j, programEnded false left report s = appendFailed a { s with nv := nv, journal := j } := by
  obtain ⟨nv, j, retired⟩ := retire_frame block .program (some slot) report (setSlot block slot (leftSlot r left) s)
  refine ⟨nv, { j with busy := .idle }, ?_⟩
  rw [retired] at h
  unfold programEnded
  rw [hj]
  simp only [Bool.false_eq_true, if_false, retired]
  obtain rfl | fresh := h
  · simp only [Bool.not_true, Bool.false_and, Bool.false_eq_true, if_false]
    split <;> rfl
  · have none_left : freshBlock (modJournal (fun j => { j with busy := .idle })
        { setSlot block slot (leftSlot r left) s with nv := nv, journal := j }) = none := fresh
    rw [none_left]
    rfl

/-- An append that the arbiter takes and that finds no slot fails at once (R173). -/
theorem arbiterStep_fails {s : State} {a : Append} {rest : List Append} (hon : s.power.state = .on)
    (hi : s.journal.busy = .idle) (he : s.journal.erasing = none) (hr : s.journal.reads = [])
    (hw : s.journal.waiting = a :: rest) (hn : nextSlot s = none) (ha : HandsOn s a) :
    arbiterStep s = appendFailed a { s with journal := { s.journal with waiting := rest } } := by
  have free : arbiterFree s = true := by simp [arbiterFree, hon, hi, he, hr]
  have starts (b : Body) : startAppend a b { s with journal := { s.journal with waiting := rest } } =
      appendFailed a { s with journal := { s.journal with waiting := rest } } := by
    have noSlot : nextSlot { s with journal := { s.journal with waiting := rest } } = none := hn
    simp [startAppend, budgetLeft, hon, noSlot]
  unfold arbiterStep
  rw [hw]
  simp only [free, if_true]
  obtain ⟨st, n, rfl⟩ | ⟨c, rfl, -, -, -, hp⟩ := ha
  · exact starts _
  · obtain ⟨b, hb⟩ := Option.isSome_iff_exists.mp hp
    have body : ∃ y, appendBody { s with journal := { s.journal with waiting := rest } } (.close c) = some y := by
      have same : ({ s with journal := { s.journal with waiting := rest } } : State).ch c = s.ch c := by cases c <;> rfl
      cases b <;> simp [appendBody, same, hb]
    obtain ⟨y, hy⟩ := body
    show takeAppend (.close c) { s with journal := { s.journal with waiting := rest } } = _
    simp only [takeAppend, hy, starts]

/-- An event that fails an append of a CLEAR LOCKOUT answers its request STORAGE. -/
theorem clearingAppend_fails {f : State → State} {s : State} {a : Append} {x : Clearing} {p : InProgress}
    (hf : ∃ nv j, f (noteValues s) = appendFailed a { noteValues s with nv := nv, journal := j })
    (hon : s.power.state = .on) (hl : s.ctl.lockout = .storage) (hc : s.ctl.clearing = some x)
    (hp : s.req.inProgress.find? (fun q => q.station = x.station) = some p) (hroom : AnswerRoom s) (ha : HandsOn s a) :
    ∃ t, event f s = .next t ∧ Answered t x.station p.seq p.code (some .storage) (.committed x.committed) ∧
      t.offLine = { s.offLine with
        ctl := { s.ctl with clearing := none, alert := false }, nv := t.nv, journal := t.journal } := by
  obtain ⟨nv, j, effect⟩ := hf
  have stands : HandsOn { noteValues s with nv := nv, journal := j } a := by
    refine ha.imp_right fun ⟨c, h⟩ => ⟨c, ?_⟩
    cases c <;> exact h
  rw [appendFailed_handsOn stands hc hl] at effect
  obtain ⟨t, done, answered, frame⟩ := event_answered effect hroom hon hp ⟨rfl, rfl, rfl⟩ rfl
  have hnv : t.nv = nv := congrArg State.nv frame
  have hj : t.journal = j := congrArg State.journal frame
  exact ⟨t, done, answered, by rw [frame, hnv, hj]; rfl⟩

/-- Settles O53: the request, the commit of a context's record, the commit of the AUDIT record, and the failures at the
program's end and at the arbiter's turn. -/
theorem lockoutIsCleared : Obligations.LockoutIsCleared := by
  refine ⟨fun s st q k h => ⟨clearLockout_refused h, fun hl hc hp => ?_⟩, ?_, ?_, ?_⟩
  · obtain ⟨t, done, waits, frame⟩ := clearLockout_begins (q := q) h hl hc hp
    exact ⟨t, _, done, waits, frame, fun c cs order => by rw [order]; rfl, fun order => by rw [order]; rfl⟩
  · intro s c r number block slot retry left report x hon hj hb hc hq rest
    obtain ⟨t, done, idle, lockout, order, clearing, waiting, requests⟩ :=
      closeCommit_continues left report hon hj hb hc hq
    refine ⟨t, done, idle, lockout, order, clearing, fun d ds hd => ?_, fun hd => ?_,
      fun room => requests room.noneWaits⟩
    · rw [waiting, show s.ctl.faultOrder.filter (fun d => decide (d ≠ c)) = d :: ds from hd]
      rfl
    · rw [waiting, show s.ctl.faultOrder.filter (fun d => decide (d ≠ c)) = [] from hd]
      simp [nextClearing, lockoutEnd]
  · exact fun s st r b block slot retry left report x hon hj hr hb hc => auditCommit_ends left report hon hj hr hb hc
  · intro s i a x p hon hl hc hp hroom ha hi
    have hands : HandsOn s a := ha.imp_left fun ⟨n, h⟩ => ⟨x.station, n, h⟩
    obtain ⟨r, block, slot, retry, left, report, rfl, hj, hfail⟩ | ⟨rest, rfl, hi, he, hr, hw, hn⟩ := hi
    · refine clearingAppend_fails (f := programEnded false left report) ?_ hon hl hc hp hroom hands
      refine programEnded_fails (s := noteValues s) hj left report (hfail.imp_right fun none_left => ?_)
      rw [freshBlock_retire] at none_left ⊢
      exact none_left
    · have ready : HandsOn (noteValues s) a := by
        refine hands.imp_right fun ⟨c, h⟩ => ⟨c, ?_⟩
        cases c <;> exact h
      exact clearingAppend_fails (f := arbiterStep)
        ⟨_, _, arbiterStep_fails (s := noteValues s) hon hi he hr hw hn ready⟩ hon hl hc hp hroom hands

end Sys2Proof.Machine.HoldsAndLockout

namespace Sys2Proof.Machine.MetrologyRequests
open Sys2Proof.Machine.LoadedTables

/-! ### The ranges of the metrology settings (R188) -/

theorem valueIn_iff (low high v : Int) : valueIn low high v = true ↔ low ≤ v ∧ v ≤ high := by simp [valueIn]

/-- A channel's meter factor in force is the value of the setting that APPLY FACTOR writes for it (R194). -/
theorem metValue_factorSetting (t : MetSettings) (c : Chan) : metValue t (factorSetting c) = factorInForce t c := by
  cases c <;> rfl

/-! ### Requests that hand an AUDIT record (R189) -/

section
variable {s : State} {st q : Byte} {k : Cls} (h : Admitted s st k .metrology)
  (hn : s.ctl.lockout = .none)

include h in
/-- A METROLOGY request whose owner hands an append waits for it, and nothing else off the line changes. -/
theorem admitted_hands {code : Byte} {owner : Owner} {a : Append} (hc : requiredClass code = some .metrology)
    (ho : owner st (actingClass s k) (taken s st code q k) = handAppend a (taken s st code q k)) :
    ∃ t, event (takeRequest st q code owner) s = .next t ∧ Waits t st code q .metrology ∧
      t.offLine = (withAppend s a).offLine := by
  obtain ⟨t, done, waits, frame⟩ := admitted_waits h hc ho rfl rfl h.on rfl
  rw [admitted_metrology h] at waits
  exact ⟨t, done, waits, frame⟩

/-! ### WRITE METROLOGY SETTING (R188) -/

include h hn in
theorem writeMetrologySetting_outOfRange {x : MetSetting} {v : Int} (out : metInRange x v = false) :
    ∃ t, exec (.writeMetrologySetting st q (some x) v) s = .next t ∧
      Answered t st q 0x50 (some .argument) .nothing ∧ t.offLine = s.offLine := by
  refine admitted_refused (owner := ownWriteMetrologySetting (some x) v) h rfl (checked_refuses ?_ _ _ _)
  simp [writeMetChecks, firstRefusal, (notLocked_iff s).mpr hn, out]

section
variable {x : MetSetting} {v : Int} (inside : metInRange x v = true) (room : accepts s = true)
include hn inside room

/-- A value in its range passes the checks: it is compared with the one in force. -/
theorem ownWriteMetrologySetting_inRange :
    ownWriteMetrologySetting (some x) v st (actingClass s k) (taken s st 0x50 q k) =
      if metValue s.store.metset x = v then accept st (.counter s.met.cal) (taken s st 0x50 q k)
      else handAppend (.manage st (.audit (settingAudit s x v st 0 0))) (taken s st 0x50 q k) := by
  refine checked_acts ?_ _ _ _
  simp [writeMetChecks, firstRefusal, (notLocked_iff s).mpr hn, inside, room]

include h

theorem writeMetrologySetting_same (same : metValue s.store.metset x = v) :
    ∃ t, exec (.writeMetrologySetting st q (some x) v) s = .next t ∧
      Answered t st q 0x50 none (.counter s.met.cal) ∧ t.offLine = s.offLine :=
  admitted_answered (owner := ownWriteMetrologySetting (some x) v) h rfl
    ((ownWriteMetrologySetting_inRange hn inside room).trans (if_pos same)) rfl rfl h.on rfl

theorem writeMetrologySetting_new (other : metValue s.store.metset x ≠ v) :
    ∃ t, exec (.writeMetrologySetting st q (some x) v) s = .next t ∧ Waits t st 0x50 q .metrology ∧
      t.offLine = (withAppend s (.manage st (.audit (settingAudit s x v st 0 0)))).offLine :=
  admitted_hands (owner := ownWriteMetrologySetting (some x) v) h rfl
    ((ownWriteMetrologySetting_inRange hn inside room).trans (if_neg other))

end

/-! ### PROVING RESULT (R193) -/

section
variable {c : Chan} {r : ProvingResult} {n : Nat} (result : provingResultOf s.met c = some r)
  (least : 1 ≤ n) (most : n ≤ 999999)
include hn result least most

/-- A channel's proving result and an observed volume in its range pass checks 1 to 3. -/
theorem ownProvingResult_now : ownProvingResult (some c) n st (actingClass s k) (taken s st 0x52 q k) =
    provingResultNow c r n st (taken s st 0x52 q k) := by
  have passes : firstRefusal (provingResultChecks (taken s st 0x52 q k) (some c) n) = none := by
    simp [provingResultChecks, firstRefusal, (notLocked_iff s).mpr hn, (between_iff 1 999999 n).mpr ⟨least, most⟩, result]
  rw [ownProvingResult, checked_acts passes]
  simp only [taken_met, Option.bind_some, result]

include h

theorem provingResult_proposes (low : 9000 ≤ proposedFactor r n) (high : proposedFactor r n ≤ 11000) :
    ∃ t, exec (.provingResult st q (some c) n) s = .next t ∧
      Answered t st q 0x52 none
        (.proposed (proposedFactor r n) (factorInForce s.store.metset c) r.pulses r.temp r.seq) ∧
      t.offLine = { s.offLine with met := { s.met with
        proposal := some { chan := c, factor := proposedFactor r n, seq := r.seq, observed := n } } } := by
  have own := ownProvingResult_now (k := k) (st := st) (q := q) hn result least most
  rw [provingResultNow, if_pos ((between_iff 9000 11000 _).mpr ⟨low, high⟩)] at own
  exact admitted_answered (owner := ownProvingResult (some c) n) h rfl own rfl rfl h.on rfl

theorem provingResult_outOfBounds (out : proposedFactor r n < 9000 ∨ 11000 < proposedFactor r n) :
    ∃ t, exec (.provingResult st q (some c) n) s = .next t ∧
      Answered t st q 0x52 (some .argument) (.computed (proposedFactor r n)) ∧ t.offLine = s.offLine := by
  have own := ownProvingResult_now (k := k) (st := st) (q := q) hn result least most
  rw [provingResultNow, if_neg (by rw [between_iff]; omega)] at own
  exact admitted_answered (owner := ownProvingResult (some c) n) h rfl own rfl rfl h.on rfl

end

/-! ### APPLY FACTOR (R194) -/

section
variable {p : Proposal} (proposed : s.met.proposal = some p) (alone : ∀ x ∈ s.req.inProgress, x.code ≠ 0x53)
  (room : accepts s = true)
include hn proposed alone room

/-- A stored proposal passes the checks where no other APPLY FACTOR is in progress: its factor is compared with the one
in force. -/
theorem ownApplyFactor_proposed : ownApplyFactor st (actingClass s k) (taken s st 0x53 q k) =
    if factorInForce s.store.metset p.chan = p.factor then
      accept st .nothing (modMet (fun m => { m with proposal := none }) (taken s st 0x53 q k))
    else handAppend (.manage st (.audit (settingAudit s (factorSetting p.chan) p.factor st p.seq p.observed)))
      (taken s st 0x53 q k) := by
  have passes : firstRefusal (applyFactorChecks (taken s st 0x53 q k) st) = none := by
    rw [applyFactorChecks, taken_otherInProgress alone]
    simp [firstRefusal, (notLocked_iff s).mpr hn, proposed, room]
  rw [ownApplyFactor, checked_acts passes]
  simp only [taken_met, taken_store, proposed]
  rfl

include h

theorem applyFactor_inForce (same : factorInForce s.store.metset p.chan = p.factor) :
    ∃ t, exec (.applyFactor st q) s = .next t ∧ Answered t st q 0x53 none .nothing ∧
      t.offLine = { s.offLine with met := { s.met with proposal := none } } :=
  admitted_answered (owner := ownApplyFactor) h rfl
    ((ownApplyFactor_proposed hn proposed alone room).trans (if_pos same)) rfl rfl h.on rfl

theorem applyFactor_new (other : factorInForce s.store.metset p.chan ≠ p.factor) :
    ∃ t, exec (.applyFactor st q) s = .next t ∧ Waits t st 0x53 q .metrology ∧
      t.offLine = (withAppend s (.manage st (.audit
        (settingAudit s (factorSetting p.chan) p.factor st p.seq p.observed)))).offLine :=
  admitted_hands (owner := ownApplyFactor) h rfl
    ((ownApplyFactor_proposed hn proposed alone room).trans (if_neg other))

end

end

/-- Settles O46: each request by the branch that its checks lead to, the ranges by their bounds. -/
theorem metrologyRequestsAct : Obligations.MetrologyRequestsAct := by
  refine ⟨fun s st q k h hn => ⟨fun x v inside room => ?_, fun x v out => ?_, fun c r n result least most => ?_,
    fun p proposed alone room => ?_⟩, fun v => ?_⟩
  · exact ⟨writeMetrologySetting_same h hn inside room, writeMetrologySetting_new h hn inside room⟩
  · exact writeMetrologySetting_outOfRange h hn out
  · exact ⟨provingResult_proposes h hn result least most, provingResult_outOfBounds h hn result least most⟩
  · refine ⟨applyFactor_inForce h hn proposed alone room, fun other => ?_⟩
    have handed := applyFactor_new (q := q) h hn proposed alone room other
    rw [settingAudit, metValue_factorSetting] at handed
    exact handed
  · exact ⟨valueIn_iff _ _ v, valueIn_iff _ _ v, valueIn_iff _ _ v, valueIn_iff _ _ v, valueIn_iff _ _ v,
      valueIn_iff _ _ v⟩

end Sys2Proof.Machine.MetrologyRequests

namespace Sys2Proof.Machine.TakingRequests
open Sys2Proof.Machine.LoadedTables

/-! ### A station that the part hears (R9, R195) -/

/-- A REQUEST frame of a station with an entry reaches the request unit of a part that is ON or STARTING. -/
structure Heard (s : State) (station : Byte) (k : Cls) : Prop where
  awake : s.power.state = .on ∨ s.power.state = .starting
  address : addressOk station = true
  entry : stationClass s station = some k

theorem heard_of_ready {s : State} {st : Byte} {k : Cls} (h : Ready s st k) : Heard s st k :=
  ⟨.inl h.on, h.address, h.entry⟩

section
variable {s : State} {st q code : Byte} {k : Cls} {owner : Owner} (h : Heard s st k)
include h

theorem Heard.notShutdown : s.power.state ≠ .shutdown := by
  rcases h.awake with on | starting <;> simp [*]

/-- Past its address and its entry the request is refused BUSY or judged (R195, steps 1 and 2). -/
theorem takeRequest_heard : takeRequest st q code owner (noteValues s) =
    if s.req.inProgress.any fun p => p.station = st then busyReply st q code (noteValues s)
    else judgeRequest st code (actingClass s k) owner (taken s st code q k) := by
  have served : takeRequest st q code owner (noteValues s) = serve st q code owner (noteValues s) := by
    have state : (noteValues s).power.state = s.power.state := rfl
    rcases h.awake with on | starting <;> simp [takeRequest, frameToZero, h.address, *]
  have entry : stationClass (noteValues s) st = some k := h.entry
  rw [served, serve, entry]
  rfl

variable (free : ∀ p ∈ s.req.inProgress, p.station ≠ st)
include free

theorem takeRequest_judged : takeRequest st q code owner (noteValues s) =
    judgeRequest st code (actingClass s k) owner (taken s st code q k) := by
  rw [takeRequest_heard h, if_neg (by simpa using free)]

/-- A request that its judgement answers at once, changing nothing but the line. -/
theorem judged_answered (room : AnswerRoom s) {r : Option RefCode} {x : Result}
    (judged : judgeRequest st code (actingClass s k) owner (taken s st code q k) =
      reply st r x (taken s st code q k)) :
    ∃ t, event (takeRequest st q code owner) s = .next t ∧ Answered t st q code r x ∧ t.offLine = s.offLine := by
  have told : (reply st r x (taken s st code q k)).offLine = s.offLine := by simp
  have answered : Answered (reply st r x (taken s st code q k)) st q code r x :=
    reply_answered (s := taken s st code q k) (p := { station := st, code := code, seq := q, cls := actingClass s k })
      room (find_taken free) r x
  have running : (reply st r x (taken s st code q k)).power.state ≠ .shutdown := by
    rw [offLine_field told (fun u => u.power.state) fun _ => rfl]
    exact h.notShutdown
  refine ⟨_, rfl, ?_, ?_⟩ <;> rw [takeRequest_judged h free, judged]
  · exact answered_finish running answered
  · rw [finish_offLine running, told]

end

/-! ### What is judged of a request that has been taken (R195, R196, R203) -/

section
variable {s : State} (st code : Byte) (acting : Cls) (owner : Owner)

theorem judgeRequest_starting (h : s.power.state = .starting) (other : code ≠ 0x60) :
    judgeRequest st code acting owner s = refuse st .busy s :=
  if_pos (by rw [h]; simpa using other)

/-- In ON, or for STATUS, what is judged first is whether a RESTART has been accepted. -/
theorem judgeRequest_restarting (servable : s.power.state = .starting → code = 0x60) (h : s.req.restart.isSome = true) :
    judgeRequest st code acting owner s = refuse st .busy s := by
  rw [judgeRequest, if_neg (by simpa using servable), if_pos h]

variable (servable : s.power.state = .starting → code = 0x60) (running : s.req.restart = none)
include servable running

theorem judgeRequest_unlisted (h : requiredClass code = none) :
    judgeRequest st code acting owner s = refuse st .argument s := by
  rw [judgeRequest, if_neg (by simpa using servable), if_neg (by simp [running]), h]

theorem judgeRequest_listed {need : Cls} (h : requiredClass code = some need) : judgeRequest st code acting owner s =
    if clsRank acting < clsRank need then refuse st .cls s else owner st acting s := by
  rw [judgeRequest, if_neg (by simpa using servable), if_neg (by simp [running]), h]

end

/-! ### The BUSY reply (R15, R195 step 1) -/

theorem busyReply_replied {s : State} (room : AnswerRoom s) (st q code : Byte) :
    replied (busyReply st q code s) st q code (some .busy) .nothing := by
  obtain ⟨reserved, place⟩ := answerPlace_some room
  rw [busyReply, place]
  exact placedC_startC (placedC_queued _ _ _)

theorem goesOn_busyReply (p : InProgress) (st q code : Byte) (s : State) : GoesOn p s (busyReply st q code s) := by
  unfold busyReply
  split
  · exact GoesOn.trans (t := queueC _ _ s) (GoesOn.of_eq rfl rfl) (goesOn_startC _ _)
  · exact .refl _ _

/-- Settles O5: the station is heard, and its request in progress goes on past the BUSY reply and the command's end. -/
theorem busyStationRefusedWithoutBeingTaken : Obligations.BusyStationRefusedWithoutBeingTaken := by
  intro i s st q c k p request awake address entry inProgress station unanswered room
  obtain ⟨owner, command⟩ := exec_request request
  have heard : Heard s st k := ⟨awake, address, entry⟩
  have effect : takeRequest st q c owner (noteValues s) = busyReply st q c (noteValues s) := by
    rw [takeRequest_heard heard, if_pos (List.any_eq_true.mpr ⟨p, inProgress, by simpa using station⟩)]
  have running : (busyReply st q c (noteValues s)).power.state ≠ .shutdown := by
    rw [offLine_field (busyReply_offLine st q c _) (fun u => u.power.state) fun _ => rfl]
    exact heard.notShutdown
  have goes : GoesOn p (noteValues s) (finish (busyReply st q c (noteValues s))) :=
    (goesOn_busyReply p st q c _).trans (goesOn_finish p running)
  refine ⟨finish (busyReply st q c (noteValues s)), by rw [command, event, effect], ?_, ?_, ?_⟩
  · exact placedC_finish running rfl (busyReply_replied (s := noteValues s) room st q c)
  · exact (goes (by rw [station]; exact unanswered)).2 inProgress
  · rw [finish_offLine running, busyReply_offLine, noteValues_offLine]

/-- Settles O6: in STARTING and after an accepted RESTART the first judgement of a request refuses it BUSY. -/
theorem requestsBusyInStartingAndAfterRestart : Obligations.RequestsBusyInStartingAndAfterRestart := by
  constructor
  · intro i s st q c k request other starting address entry free room
    obtain ⟨owner, command⟩ := exec_request request
    rw [command]
    exact judged_answered ⟨.inr starting, address, entry⟩ free room (judgeRequest_starting _ _ _ _ starting other)
  · intro i s st q c k sent request on address entry free restart room
    obtain ⟨owner, command⟩ := exec_request request
    rw [command]
    exact judged_answered ⟨.inl on, address, entry⟩ free room
      (judgeRequest_restarting _ _ _ _ (by simp [on]) (by simp [restart]))

/-! ### Requests that lockout stops (R151) -/

/-- A request command is the taking of its REQUEST frame by the owner that its code has. -/
theorem exec_requestOfCommand {i : Instr} {src seq code : Byte} (h : requestFrame i = some (src, seq, code)) :
    ∃ owner, requestOfCommand i = some (code, owner) ∧ exec i = event (takeRequest src seq code owner) := by
  cases i <;> simp only [requestFrame, Option.some.injEq, Prod.mk.injEq, reduceCtorEq] at h <;>
    (obtain ⟨rfl, rfl, rfl⟩ := h; exact ⟨_, rfl, rfl⟩)

/-- The owner refuses LOCKOUT in every lockout, ahead of its other checks. -/
def LockoutFirst (owner : Owner) : Prop :=
  ∀ (st : Byte) (acting : Cls) (s : State), s.ctl.lockout ≠ .none → owner st acting s = refuse st .lockout s

/-- Where the first check is that the part is not in lockout, lockout refuses. -/
theorem checked_lockout {s : State} (locked : s.ctl.lockout ≠ .none) (checks : List (Bool × RefCode)) (st : Byte)
    (act : State → State) : checked ((notLocked s, .lockout) :: checks) st act s = refuse st .lockout s :=
  checked_refuses (by simp [firstRefusal, notLocked, locked]) _ _ _

/-- A request command whose owner lockout stops first. -/
def StopsInLockout (i : Instr) : Prop := ∃ code owner, requestOfCommand i = some (code, owner) ∧ LockoutFirst owner

/-- An admitted station's request whose owner refuses LOCKOUT. -/
theorem turnedAway {i : Instr} {s : State} {st q : Byte} {k need : Cls} (h : Admitted s st k need)
    (locked : s.ctl.lockout ≠ .none) (stops : StopsInLockout i) (code : Byte)
    (request : requestFrame i = some (st, q, code)) (needs : requiredClass code = some need) :
    ∃ t, exec i s = .next t ∧ Answered t st q code (some .lockout) .nothing ∧ t.offLine = s.offLine := by
  obtain ⟨owner, owned, command⟩ := exec_requestOfCommand request
  obtain ⟨code', owner', owned', first⟩ := stops
  cases owned.symm.trans owned'
  rw [command]
  exact admitted_refused h needs (first _ _ _ locked)

/-- OPEN PROVING asks for lockout once no activation bars its channel (R34). -/
theorem ownOpenProving_locked {s : State} {c : Chan} (locked : s.ctl.lockout ≠ .none) (unbarred : barred s c = false)
    (n : Nat) (st : Byte) (acting : Cls) : ownOpenProving (some c) n st acting s = refuse st .lockout s := by
  have refusal : firstRefusal (openProvingChecks s c n) = some .lockout := by
    simp [openProvingChecks, firstRefusal, unbarred, notLocked, locked]
  rw [ownOpenProving, checked_refuses refusal]

/-- Settles O7: the judgement by class, the judgement by code, and the first check of each owner that lockout stops. -/
theorem requestsJudgedByCodeAndClass : Obligations.RequestsJudgedByCodeAndClass := by
  refine ⟨?_, ?_, ?_⟩
  · intro i s st q c k need request ready room needs above
    obtain ⟨owner, command⟩ := exec_request request
    rw [command]
    refine judged_answered (heard_of_ready ready) ready.free room ?_
    exact (judgeRequest_listed (s := taken s st c q k) _ _ _ _ (by simp [ready.on]) ready.running needs).trans
      (if_pos above)
  · intro s st q c k ready room unlisted
    exact judged_answered (owner := payloadOwner c []) (heard_of_ready ready) ready.free room
      (judgeRequest_unlisted _ _ _ _ (by simp [ready.on]) ready.running unlisted)
  · intro s st q k need c n m v z kind es ragged x y d form admitted locked
    refine ⟨fun i hi => turnedAway admitted locked ?_, fun unbarred code request needs => ?_⟩
    · -- Each of the owners lists the lockout check first.
      revert i
      simp only [List.forall_mem_cons, List.not_mem_nil, false_imp_iff, implies_true, and_true]
      and_intros <;> exact ⟨_, _, rfl, fun _ _ _ locked => checked_lockout locked _ _ _⟩
    · cases request
      exact admitted_refused (owner := ownOpenProving (some c) n) admitted needs
        (ownOpenProving_locked (s := taken s st 0x51 q k) locked unbarred _ _ _)

end Sys2Proof.Machine.TakingRequests

namespace Sys2Proof.Machine.SupplyAndStartUp
open Sys2Proof.Machine.LoadedTables Sys2Proof.Machine.HoldsAndLockout Sys2Proof.Machine.TakingRequests

/-! ### STATUS and READ TOTALS (R163, R197) -/

theorem routeIdOf_eq (s : State) :
    routeIdOf s = if s.route.state = .none then 0 else (s.route.header.map RouteHeader.id).getD 0 := by
  unfold routeIdOf
  cases s.route.state <;> cases s.route.header <;> rfl

/-- Before reconstruction has run the route table and the journal are empty, and STATUS shows 0 for what they hold. -/
theorem figures_before_reconstruction {s : State} (route : s.route = {}) (journal : s.journal = {}) :
    routeIdOf s = 0 ∧ freeSlots s = 0 ∧ (undrained s.journal).length = 0 := by
  refine ⟨?_, ?_, ?_⟩
  · rw [routeIdOf_eq, route]
    rfl
  · rw [freeSlots, journal]
    rfl
  · rw [journal]
    rfl

/-- What STATUS tells of a state in ON or STARTING. -/
theorem statusOf_eq {s : State} {starting : Bool} (h : decide (s.power.state = .starting) = starting) : statusOf s =
    { starting := starting, lockout := s.ctl.lockout
      stateA := s.chA.ctx.state, modeA := s.chA.ctx.mode, stateB := s.chB.ctx.state, modeB := s.chB.ctx.mode
      switchOpen := s.pins.switchOpen, level := s.power.level, ignitionOn := s.pins.ignitionOn
      routeId := if s.route.state = .none then 0 else (s.route.header.map RouteHeader.id).getD 0
      free := freeSlots s, undrained := (undrained s.journal).length
      clock := s.power.clock, unset := s.power.unset } := by
  rw [statusOf, h, routeIdOf_eq]

/-- Every class may ask for STATUS. -/
theorem clsRank_driver_le (k : Cls) : ¬ clsRank k < clsRank .driver := by cases k <;> decide

/-- STATUS is served in STARTING where no RESTART has been accepted. -/
theorem status_starting {s : State} {st q : Byte} {k : Cls} (starting : s.power.state = .starting)
    (address : addressOk st = true) (entry : stationClass s st = some k)
    (free : ∀ p ∈ s.req.inProgress, p.station ≠ st) (running : s.req.restart = none) (room : AnswerRoom s) :
    ∃ t, exec (.status st q) s = .next t ∧ Answered t st q 0x60 none (.status (statusOf s)) ∧
      t.offLine = s.offLine :=
  judged_answered (owner := ownStatus) ⟨.inr starting, address, entry⟩ free room
    ((judgeRequest_listed (s := taken s st 0x60 q k) st 0x60 _ ownStatus (fun _ => rfl) running rfl).trans
      (if_neg (clsRank_driver_le _)))

/-- Settles O8: both requests answer with figures of the state, which they leave as it is. -/
theorem statusAndTotalsReport : Obligations.StatusAndTotalsReport := by
  refine ⟨fun s st q k h => ?_, fun s st q k starting address entry free running room => ⟨?_, fun route journal => ?_⟩,
    fun s st q k h => ?_⟩
  · obtain ⟨t, done, answered, frame⟩ := admitted_answered (seq := q) (owner := ownStatus)
      (u := taken s st 0x60 q k) h rfl rfl rfl rfl h.on rfl
    rw [statusOf_eq (s := taken s st 0x60 q k) (starting := false) (by simp [h.on])] at answered
    exact ⟨t, done, frame, answered⟩
  · obtain ⟨t, done, answered, frame⟩ := status_starting (q := q) starting address entry free running room
    rw [statusOf_eq (starting := true) (by simp [starting])] at answered
    exact ⟨t, done, frame, answered⟩
  · have none_shown := figures_before_reconstruction route journal
    rw [routeIdOf_eq] at none_shown
    exact none_shown
  · obtain ⟨t, done, answered, frame⟩ := admitted_answered (seq := q) (owner := ownReadTotals)
      (u := taken s st 0x28 q k) h rfl rfl rfl rfl h.on rfl
    rw [routeIdOf_eq] at answered
    exact ⟨t, done, frame, answered⟩

/-! ### The clock (R198) -/

section
variable {s : State} {st : Byte} {k : Cls} (h : Admitted s st k .office) (q : Byte)
include h

theorem setClock_sets {n : Nat} (inRange : n ≤ 4294967295) : ∃ t, exec (.setClock st q (some n)) s = .next t ∧
    Answered t st q 0x61 none (.clock s.power.clock s.power.unset) ∧
    t.offLine = { s.offLine with power := { s.power with clock := n, unset := false, standby := none } } :=
  admitted_answered (owner := ownSetClock (some n))
    (u := modPower (fun p => { p with clock := n, unset := false }) (taken s st 0x61 q k)) h rfl (if_pos inRange)
    rfl rfl h.on rfl

theorem setClock_refused {v : Option Nat} (unreadable : ∀ n, v = some n → 4294967295 < n) :
    ∃ t, exec (.setClock st q v) s = .next t ∧ Answered t st q 0x61 (some .argument) .nothing ∧
      t.offLine = s.offLine := by
  refine admitted_refused (owner := ownSetClock v) h rfl ?_
  cases v with
  | none => rfl
  | some n => exact if_neg (Nat.not_le.mpr (unreadable n rfl))

end

theorem notShutdown_of_off {s : State} (off : s.power.state = .off) : s.power.state ≠ .shutdown := by simp [off]

theorem notShutdown_of_starting {s : State} (starting : s.power.state = .starting) : s.power.state ≠ .shutdown := by
  simp [starting]

/-- Something keeps a part in SHUTDOWN from going OFF (R201, step 6). -/
def KeptOn (s : State) : Prop := s.journal.waiting ≠ [] ∨ s.journal.busy ≠ .idle ∨ s.store.tableWrite ≠ none ∨
  s.store.settingsWrites ≠ []

theorem judgePowerOff_kept {s : State} (h : s.power.state = .shutdown → KeptOn s) : judgePowerOff s = s := by
  refine if_neg fun ended => ?_
  simp only [Bool.and_eq_true, decide_eq_true_eq, List.isEmpty_iff, Option.isNone_iff_eq_none] at ended
  obtain ⟨⟨⟨⟨shutdown, waiting⟩, busy⟩, table⟩, settings⟩ := ended
  rcases h shutdown with k | k | k | k <;> contradiction

/-- What closes a command is not seen where SHUTDOWN goes on. -/
theorem finish_offLine_kept {s : State} (h : s.power.state = .shutdown → KeptOn s) :
    (finish s).offLine = s.offLine := by
  have told : (settleNotice .b (settleNotice .a s)).offLine = s.offLine := by simp
  have kept : (settleNotice .b (settleNotice .a s)).power.state = .shutdown →
      KeptOn (settleNotice .b (settleNotice .a s)) := by
    rw [offLine_field told (fun u => u.power.state) fun _ => rfl, offLine_field told KeptOn fun _ => rfl]
    exact h
  rw [finish, judgeStandby_offLine, judgeAlert_offLine, judgePowerOff_kept kept, told]

theorem clockSecond_counts {s : State} (running : s.power.state ≠ .off) (kept : s.power.state = .shutdown → KeptOn s) :
    ∃ t, exec .clockSecond s = .next t ∧ t.offLine = { s.offLine with
      power := { s.power with clock := min 4294967295 (s.power.clock + 1), standby := none } } := by
  have counts : clockTick (noteValues s) =
      modPower (fun p => { p with clock := stopAt top32 (p.clock + 1) }) (noteValues s) := if_neg running
  have stays : (clockTick (noteValues s)).power.state = .shutdown → KeptOn (clockTick (noteValues s)) := by
    rw [counts]
    exact kept
  exact ⟨_, rfl, (finish_offLine_kept stays).trans (congrArg State.offLine counts)⟩

/-- Settles O12: SET CLOCK by whether its argument is in range, CLOCK_SECOND by the power state. -/
theorem clockIsSetAndCounts : Obligations.ClockIsSetAndCounts :=
  ⟨fun _ _ q _ h => ⟨fun _ => setClock_sets h q, fun _ => setClock_refused h q⟩, fun _ => clockSecond_counts,
   fun s off => event_is (f := clockTick) (u := noteValues s) (congrArg State.offLine (if_pos off))
     (notShutdown_of_off off)⟩

/-! ### The loss of working memory (R201, R202) -/

/-- A part that has lost its working memory, with inputs and a power block. -/
def lost (s : State) (pins : Pins) (power : Power) : State := { coldStart s with pins := pins, power := power }

/-- Nothing is left to close a command with: no notice is due, no cause is in force, and no timer runs. -/
theorem finish_lost (s : State) (pins : Pins) {power : Power} (asleep : power.state = .off ∨ power.state = .starting)
    (stopped : power.standby = none) : finish (lost s pins power) = lost s pins power := by
  obtain ⟨state, phase, level, clock, unset, standby, budget⟩ := power
  cases stopped
  rcases asleep with h | h <;> cases h <;> rfl

theorem powerOnValues_eq (s : State) : powerOnValues s = lost s s.pins {} := rfl

theorem enterStarting_eq (level : SupplyLevel) (s : State) : enterStarting level s =
    lost s s.pins { state := .starting, level := classLevel {} level s.pins.voltage } := rfl

/-- What outlasts the loss of working memory, but for the inputs, is the same in both states. -/
structure OutlastsAlike (s t : State) : Prop where
  nv : t.nv = s.nv
  free : t.free = s.free
  pending : t.pending = s.pending

theorem outlastsAlike_of_offLine {s t : State} (h : t.offLine = s.offLine) : OutlastsAlike s t :=
  ⟨offLine_field h (fun u => u.nv) fun _ => rfl, offLine_field h (fun u => u.free) fun _ => rfl,
    offLine_field h (fun u => u.pending) fun _ => rfl⟩

theorem lost_congr {s t : State} (h : OutlastsAlike s t) (pins : Pins) (power : Power) :
    lost t pins power = lost s pins power := by
  simp only [lost, coldStart, h.nv, h.free, h.pending]

/-- An event that ends in the loss of working memory. -/
theorem event_lost {f : State → State} {s t : State} {pins : Pins} {power : Power}
    (hf : f (noteValues s) = lost t pins power) (ht : OutlastsAlike s t)
    (asleep : power.state = .off ∨ power.state = .starting) (stopped : power.standby = none) :
    event f s = .next (lost s pins power) := by
  rw [event, hf, lost_congr ht, finish_lost s pins asleep stopped]

/-! ### The supply while STARTING (R202) -/

/-- The 12 V levels with LOW step 2, which are in force before the settings are read (R39, R202). -/
theorem classLevel_default {mv : Nat} (above : 9000 < mv) :
    classLevel {} .normal mv = if mv < 11500 then .low else .normal := if_neg (Nat.not_le.mpr above)

theorem classLevel_brown {x : Settings} {level : SupplyLevel} {mv : Nat} (h : mv ≤ brownLevel x) :
    classLevel x level mv = .brown := by
  cases level <;> simp [classLevel, h]

section
variable {s : State} {mv : Nat}

theorem senseVoltage_off_high (off : s.power.state = .off) (high : 9500 ≤ mv) :
    senseVoltage mv s = enterStarting .normal (sensed s mv) := by
  simp only [senseVoltage, off, if_pos high, sensed]

theorem senseVoltage_off_low (off : s.power.state = .off) (low : mv < 9500) : senseVoltage mv s = sensed s mv := by
  simp only [senseVoltage, off, if_neg (Nat.not_le.mpr low), sensed]

variable (starting : s.power.state = .starting)
include starting

theorem senseVoltage_loss (low : mv < 9000) : senseVoltage mv s = powerOnValues (sensed s mv) := by
  simp only [senseVoltage, starting, if_pos low, goOff, sensed]

variable (high : 9000 ≤ mv)
include high

/-- The BROWN level loses the working memory once reconstruction is under way, and before it is latched. -/
theorem senseVoltage_brown (fresh : s.power.level ≠ .brown) (brown : mv ≤ brownLevel s.store.settings) :
    senseVoltage mv s = if s.power.phase = .reconstructing then powerOnValues (sensed s mv)
      else modPower (fun p => { p with level := .brown }) (sensed s mv) := by
  simp [senseVoltage, starting, Nat.not_lt.mpr high, fresh, classSupply, classLevel_brown brown, goOff, sensed]

/-- With BROWN latched before reconstruction, the supply is compared with the BROWN level plus hysteresis. -/
theorem senseVoltage_latched (latched : s.power.level = .brown) (before : s.power.phase ≠ .reconstructing) :
    senseVoltage mv s = if brownLevel s.store.settings + hysteresis s.store.settings ≤ mv
      then resumeStarting (sensed s mv) else sensed s mv := by
  simp [senseVoltage, starting, Nat.not_lt.mpr high, latched, before, sensed]

end

theorem hysteresis_pos (x : Settings) : 0 < hysteresis x := by
  unfold hysteresis
  cases x.system <;> decide

/-- From LOW, a voltage of the BROWN level plus hysteresis classes to LOW or NORMAL. -/
theorem classLevel_resumed {x : Settings} {mv : Nat} (h : brownLevel x + hysteresis x ≤ mv) :
    classLevel x .low mv = if lowStep x + hysteresis x ≤ mv then .normal else .low :=
  if_neg (by have := hysteresis_pos x; omega)

theorem outlastsAlike_sensed (s : State) (mv : Nat) : OutlastsAlike s (sensed (noteValues s) mv) := ⟨rfl, rfl, rfl⟩

section
variable {s : State} {mv : Nat}

theorem powerOn_begins (off : s.power.state = .off) (high : 9500 ≤ mv) :
    exec (.powerOn mv) s = .next { coldStart s with
      pins := { s.pins with voltage := mv }
      power := { state := .starting, level := if mv < 11500 then .low else .normal } } := by
  rw [← classLevel_default (by omega)]
  exact event_lost (f := senseVoltage mv) (senseVoltage_off_high (s := noteValues s) off high)
    (outlastsAlike_sensed s mv) (.inr rfl) rfl

theorem powerOn_tooLow (off : s.power.state = .off) (low : mv < 9500) :
    ∃ t, exec (.powerOn mv) s = .next t ∧ t.offLine = { s.offLine with pins := { s.pins with voltage := mv } } :=
  event_is (f := senseVoltage mv) (u := sensed (noteValues s) mv)
    (congrArg State.offLine (senseVoltage_off_low (s := noteValues s) off low)) (notShutdown_of_off off)

/-- An event that ends in OFF under the voltage that the sense shows. -/
theorem event_off {f : State → State} (h : f (noteValues s) = powerOnValues (sensed (noteValues s) mv)) :
    event f s = .next { coldStart s with pins := { s.pins with voltage := mv } } :=
  event_lost (t := sensed (noteValues s) mv) h (outlastsAlike_sensed s mv) (.inl rfl) rfl

section
variable (starting : s.power.state = .starting)
include starting

theorem startingPowerLoss_off (low : mv < 9000) :
    exec (.startingPowerLoss mv) s = .next { coldStart s with pins := { s.pins with voltage := mv } } :=
  event_off (f := senseVoltage mv) (senseVoltage_loss (s := noteValues s) starting low)

variable (high : 9000 ≤ mv)
include high

section
variable (fresh : s.power.level ≠ .brown) (brown : mv ≤ brownLevel s.store.settings)
include fresh brown

theorem brown_reconstructing (under_way : s.power.phase = .reconstructing) :
    exec (.brown mv) s = .next { coldStart s with pins := { s.pins with voltage := mv } } :=
  event_off (f := senseVoltage mv)
    ((senseVoltage_brown (s := noteValues s) starting high fresh brown).trans (if_pos under_way))

theorem brown_latches (before : s.power.phase ≠ .reconstructing) :
    ∃ t, exec (.brown mv) s = .next t ∧ t.offLine = { s.offLine with
      pins := { s.pins with voltage := mv }, power := { s.power with level := .brown, standby := none } } :=
  event_is (f := senseVoltage mv) (u := modPower (fun p => { p with level := .brown }) (sensed (noteValues s) mv))
    (congrArg State.offLine
      ((senseVoltage_brown (s := noteValues s) starting high fresh brown).trans (if_neg before)))
    (notShutdown_of_starting starting)

end

variable (latched : s.power.level = .brown) (before : s.power.phase ≠ .reconstructing)
include latched before

theorem startingResume_goesOn (risen : brownLevel s.store.settings + hysteresis s.store.settings ≤ mv) :
    ∃ t, exec (.startingResume mv) s = .next t ∧ t.offLine = { s.offLine with
      pins := { s.pins with voltage := mv }
      power := { s.power with
        level := if lowStep s.store.settings + hysteresis s.store.settings ≤ mv then .normal else .low
        phase := if s.power.phase = .heldBrown then .reconstructing else s.power.phase
        standby := none } } := by
  rw [← classLevel_resumed risen]
  exact event_is (f := senseVoltage mv) (u := resumeStarting (sensed (noteValues s) mv))
    (congrArg State.offLine
      ((senseVoltage_latched (s := noteValues s) starting high latched before).trans (if_pos risen)))
    (notShutdown_of_starting starting)

theorem startingResume_stays (low : mv < brownLevel s.store.settings + hysteresis s.store.settings) :
    ∃ t, exec (.startingResume mv) s = .next t ∧
      t.offLine = { s.offLine with pins := { s.pins with voltage := mv } } :=
  event_is (f := senseVoltage mv) (u := sensed (noteValues s) mv)
    (congrArg State.offLine
      ((senseVoltage_latched (s := noteValues s) starting high latched before).trans (if_neg (Nat.not_le.mpr low))))
    (notShutdown_of_starting starting)

end

end

/-- Settles O13: what the supply sense shows, by the power state, the latch of BROWN and the phase of STARTING. -/
theorem startingBeginsEndsAndResumes : Obligations.StartingBeginsEndsAndResumes :=
  ⟨fun _ _ off => ⟨powerOn_begins off, powerOn_tooLow off⟩,
   fun _ _ => startingPowerLoss_off,
   fun _ _ starting fresh high brown =>
     ⟨brown_reconstructing starting high fresh brown, brown_latches starting high fresh brown⟩,
   fun _ _ starting latched before high =>
     ⟨startingResume_goesOn starting high latched before, startingResume_stays starting high latched before⟩⟩

/-! ### RESTART (R203) -/

theorem othersInProgress_taken {s : State} {st code q : Byte} {k : Cls}
    (free : ∀ p ∈ s.req.inProgress, p.station ≠ st) :
    othersInProgress (taken s st code q k) st = !s.req.inProgress.isEmpty := by
  rw [othersInProgress, taken_inProgress, List.any_append]
  cases h : s.req.inProgress with
  | nil => simp
  | cons p rest => simp [free p (by simp [h])]

section
variable {s : State} {st : Byte} {k : Cls} (h : Admitted s st k .office) (q : Byte)
include h

theorem restart_refused {r : RefCode} (first : firstRefusal (restartChecks (taken s st 0x62 q k) st) = some r) :
    ∃ t, exec (.restart st q) s = .next t ∧ Answered t st q 0x62 (some r) .nothing ∧ t.offLine = s.offLine :=
  admitted_refused (owner := ownRestart) h rfl (checked_refuses first _ _ _)

theorem restart_accepted (passes : firstRefusal (restartChecks (taken s st 0x62 q k) st) = none) :
    ∃ t, exec (.restart st q) s = .next t ∧ Answered t st q 0x62 none .nothing ∧
      t.offLine = { s.offLine with req := { inProgress := [], restart := some false } } :=
  admitted_answered (owner := ownRestart) h rfl (checked_acts passes _ _ _) rfl rfl h.on rfl

end

/-- The state in which the reply of an accepted RESTART has left the C transmitter. -/
def restartReplied (s : State) : State :=
  modReq (fun x => { x with restart := some true }) (modLine (fun l => { l with cline := none }) s)

section
variable {s : State} {r : Reply} {b : Bool} (sent : s.line.cline = some (.reply r)) (code : r.code = 0x62)
  (done : r.refusal = none) (accepted : s.req.restart = some b)
include code done accepted

theorem restartReplySent_replied :
    restartReplySent (.reply r) (modLine (fun l => { l with cline := none }) s) = restartReplied s := by
  simp [restartReplySent, isRestartReply, code, done, accepted, modReq, restartReplied]

include sent

/-- When that reply has been sent, and no erase is in progress, the part restarts. -/
theorem cEnd_restarts (erase : s.journal.erasing = none) :
    cEnd s = enterStarting s.power.level (startC (restartReplied s)) := by
  have frame : (startC (restartReplied s)).offLine = (restartReplied s).offLine := startC_offLine _
  have due : (startC (restartReplied s)).req.restart = some true :=
    offLine_field frame (fun u => u.req.restart) fun _ => rfl
  have free : (startC (restartReplied s)).journal.erasing = none :=
    (offLine_field frame (fun u => u.journal.erasing) fun _ => rfl).trans erase
  have level : (startC (restartReplied s)).power.level = s.power.level :=
    offLine_field frame (fun u => u.power.level) fun _ => rfl
  rw [cEnd, sent]
  dsimp only
  rw [restartReplySent_replied code done accepted, restartWhenReady, if_pos (by simp [due, free]), level]

theorem cTransmitEnd_restarts (erase : s.journal.erasing = none) : exec .cTransmitEnd s = .next { coldStart s with
    power := { state := .starting, level := classLevel {} s.power.level s.pins.voltage } } := by
  have restarts := cEnd_restarts (s := noteValues s) sent code done accepted erase
  have frame : (startC (restartReplied (noteValues s))).offLine = (restartReplied (noteValues s)).offLine :=
    startC_offLine _
  have pins : (startC (restartReplied (noteValues s))).pins = s.pins :=
    offLine_field frame (fun u => u.pins) fun _ => rfl
  have alike : OutlastsAlike (restartReplied (noteValues s)) (startC (restartReplied (noteValues s))) :=
    outlastsAlike_of_offLine frame
  rw [enterStarting_eq, pins] at restarts
  exact event_lost (f := cEnd) restarts ⟨alike.nv, alike.free, alike.pending⟩ (.inr rfl) rfl

end

theorem bothIdle_iff (s : State) : bothIdle s = true ↔ s.chA.ctx.state = .idle ∧ s.chB.ctx.state = .idle := by
  simp [bothIdle]

/-- Settles O55: RESTART by the first of its checks that fails, and the restart at the end of its reply. -/
theorem restartBeginsAfterItsReply : Obligations.RestartBeginsAfterItsReply := by
  refine ⟨fun s st q k h => ⟨fun storage => ?_, fun unlocked => ⟨fun busy_context => ?_, fun idleA idleB => ?_⟩⟩,
    fun s r b _ sent code done accepted erase => cTransmitEnd_restarts sent code done accepted erase⟩
  · exact restart_refused h q (by simp [restartChecks, firstRefusal, storage])
  · have open_context : bothIdle s = false := by
      rw [← Bool.not_eq_true, bothIdle_iff]
      rintro ⟨idleA, idleB⟩
      exact busy_context.elim (fun openA => openA idleA) fun openB => openB idleB
    exact restart_refused h q (by simp [restartChecks, firstRefusal, unlocked, open_context])
  · have idle : bothIdle s = true := (bothIdle_iff s).mpr ⟨idleA, idleB⟩
    refine ⟨fun others => ?_, fun alone => ?_⟩
    · exact restart_refused h q (by
        simp [restartChecks, firstRefusal, unlocked, idle, othersInProgress_taken h.free, others])
    · exact restart_accepted h q (by
        simp [restartChecks, firstRefusal, unlocked, idle, othersInProgress_taken h.free, alone])

end Sys2Proof.Machine.SupplyAndStartUp

namespace Sys2Proof.Machine.Standby
open Sys2Proof.Machine.LoadedTables

/-! ### The ignition's change to OFF (R200) -/

/-- In IDLE a channel has no notice to send. -/
theorem settleNotice_idle {s : State} {c : Chan} (idle : (s.ch c).ctx.state = .idle) :
    settleNotice c s = modCh c (fun x => { x with noticeRef := none }) s := by
  unfold settleNotice valueNotice
  rw [if_pos idle]
  dsimp only
  split
  · rw [ite_self]
  · rfl

/-- With both channels in IDLE, what closes a command judges the standby delay timer of the state as it stands. -/
theorem finish_standby {s : State} (ready : standbyReady s = true) :
    (finish s).power.standby = some (s.power.standby.getD s.store.settings.standbyDelay) := by
  have due := (HoldsAndLockout.standbyReady_iff s).mp ready
  obtain ⟨on, -, idleA, idleB, -⟩ := due
  have quiet : settleNotice .b (settleNotice .a s) = modCh .b (fun x => { x with noticeRef := none })
      (modCh .a (fun x => { x with noticeRef := none }) s) := by
    rw [settleNotice_idle (c := .a) idleA]
    exact settleNotice_idle idleB
  have stays : judgePowerOff (settleNotice .b (settleNotice .a s)) = settleNotice .b (settleNotice .a s) := by
    rw [quiet]
    exact if_neg (by simp [on])
  have still : standbyReady (judgeAlert (settleNotice .b (settleNotice .a s))) = true := by
    rw [quiet]
    exact ready
  rw [finish, stays, judgeStandby, if_pos still, quiet]
  rfl

theorem ignitionOff_told {s : State} (run : s.power.state ≠ .shutdown) :
    ∃ t, exec .ignitionOff s = .next t ∧
      t.offLine = { s.offLine with pins := { s.pins with ignitionOn := false } } ∧
      (standbyReady { s with pins := { s.pins with ignitionOn := false } } = true →
        t.power.standby = some (s.power.standby.getD s.store.settings.standbyDelay)) :=
  ⟨finish (setIgnition false (noteValues s)), rfl, finish_offLine run,
    fun ready => finish_standby (s := setIgnition false (noteValues s)) ready⟩

/-! ### STANDBY is entered (R136, R200) -/

section
variable {s : State} (run : s.power.state ≠ .shutdown)

theorem standbyExpiry_enters (timer : s.power.standby.isSome = true) :
    ∃ t, exec .standbyDelayExpiry s = .next t ∧ t.offLine = { s.offLine with
      power := { s.power with state := .standby, standby := none }
      chA := { s.chA.offLine with gate := { s.chA.gate with timer := false } }
      chB := { s.chB.offLine with gate := { s.chB.gate with timer := false } } } :=
  event_is (f := standbyExpiry) (u := enterStandby (noteValues s)) (congrArg State.offLine (if_pos timer))
    (by simp [enterStandby])

include run in
theorem standbyExpiry_stopped (stopped : s.power.standby = none) :
    ∃ t, exec .standbyDelayExpiry s = .next t ∧ t.offLine = s.offLine :=
  event_is (f := standbyExpiry) (u := noteValues s)
    (congrArg State.offLine (if_neg (by simp [noteValues, stopped]))) run

/-! ### The ignition's change to ON (R136, R200) -/

theorem wake_awake {s : State} (awake : s.power.state ≠ .standby) : wake s = s := by
  unfold wake
  cases h : s.power.state with
  | standby => exact absurd h awake
  | off | starting | on | shutdown => rfl

include run in
theorem ignitionOn_awake (awake : s.power.state ≠ .standby) :
    ∃ t, exec .ignitionOn s = .next t ∧ t.offLine = { s.offLine with pins := { s.pins with ignitionOn := true } } :=
  event_is (f := fun s => wake (setIgnition true s)) (u := setIgnition true (noteValues s))
    (congrArg State.offLine (wake_awake (s := setIgnition true (noteValues s)) awake)) run

end

/-! ### A valve order that has its place on port F keeps it (R13, R14) -/

theorem placedF_of_fSide {s t : State} (h : fSide t = fSide s) (f : FFrame) : placedF t f ↔ placedF s f := by
  simp only [fSide, Prod.mk.injEq] at h
  obtain ⟨queue, onLine, -⟩ := h
  simp only [placedF, queue, onLine]

theorem placedF_startF {s : State} {f : FFrame} (h : placedF s f) : placedF (startF s) f := by
  unfold startF
  split
  · split
    · rename_i g free _
      rcases h with h | h
      · rw [free] at h
        cases h
      · by_cases same : f = g
        · exact .inl (congrArg some same.symm)
        · exact .inr ((List.mem_erase_of_ne same).mpr h)
    · exact h
  · exact h

/-- The other channel's order is not withdrawn. -/
theorem placedF_placeOrder {s : State} {f : FFrame} {c : Chan} {p : Pos} {n : Byte} (other : isOrderOf c f = false)
    (h : placedF s f) : placedF (placeOrder c p n s) f := by
  unfold placeOrder
  split
  · refine placedF_startF ?_
    rcases h with h | h
    · exact .inl h
    · exact .inr (List.mem_append_left _ (List.mem_filter.mpr ⟨h, by simp [other]⟩))
  · exact h

theorem placeOrder_placed {s : State} {c : Chan} {node : NodeEntry} (valve : nodeOf s c .valve = some node) (p : Pos)
    (n : Byte) : ∃ q, placedF (placeOrder c p n s) (.order c node.address q p n) := by
  unfold placeOrder
  rw [valve]
  exact ⟨_, placedF_startF (.inr (List.mem_append_right _ (List.mem_singleton.mpr rfl)))⟩

/-! ### Waking (R136) -/

/-- A gate that has woken: its SENT order is outstanding anew, and every other order is left. -/
def wokenGate (g : Gate) : Gate :=
  match g.outstanding with
  | some o => if o.phase = .sent then { g with outstanding := some { o with phase := .queued }, timer := false } else g
  | none => g

theorem wokenGate_sent {g : Gate} {o : Order} (sent : g.outstanding = some o) (phase : o.phase = .sent) :
    wokenGate g = { g with outstanding := some { o with phase := .queued }, timer := false } := by
  simp only [wokenGate, sent, phase, if_true]

theorem wakeGate_sent {s : State} {c : Chan} {o : Order} (sent : (s.ch c).gate.outstanding = some o)
    (phase : o.phase = .sent) : wakeGate c s = resendOrder c o o.attempts s := by
  simp only [wakeGate, sent, phase]

theorem modGate_self {s : State} {c : Chan} {f : Gate → Gate} (h : f (s.ch c).gate = (s.ch c).gate) :
    modGate c f s = s := by
  rw [modGate_eq, h]
  exact setCh_ch s c

theorem wakeGate_offLine (c : Chan) (s : State) : (wakeGate c s).offLine = (modGate c wokenGate s).offLine := by
  cases outstanding : (s.ch c).gate.outstanding with
  | none =>
    rw [modGate_self (f := wokenGate) (by rw [wokenGate, outstanding])]
    simp only [wakeGate, outstanding]
  | some o =>
    cases phase : o.phase with
    | queued =>
      rw [modGate_self (f := wokenGate) (by simp [wokenGate, outstanding, phase])]
      simp only [wakeGate, outstanding, phase]
    | sent =>
      rw [wakeGate_sent outstanding phase, resendOrder_offLine, modGate_eq, modGate_eq,
        wokenGate_sent outstanding phase]

/-- Where a gate wakes, the other channel stays as it is. -/
theorem wakeGate_other {c d : Chan} (other : d ≠ c) (s : State) : ((wakeGate c s).ch d).offLine = (s.ch d).offLine := by
  rw [ch_offLine_eq (wakeGate_offLine c s), ch_modGate_other other]

theorem wakeGate_store (c : Chan) (s : State) : (wakeGate c s).store = s.store :=
  (store_eq (wakeGate_offLine c s)).trans (modGate_store _ _ _)

theorem wakeGate_placed {s : State} {c : Chan} {o : Order} {node : NodeEntry}
    (sent : (s.ch c).gate.outstanding = some o) (phase : o.phase = .sent) (valve : nodeOf s c .valve = some node) :
    ∃ q, placedF (wakeGate c s) (.order c node.address q o.position o.number) := by
  rw [wakeGate_sent sent phase]
  exact placeOrder_placed (by rw [modGate_eq, nodeOf_setCh, valve]) _ _

theorem placedF_wakeGate {s : State} {f : FFrame} {c : Chan} (other : isOrderOf c f = false) (h : placedF s f) :
    placedF (wakeGate c s) f := by
  unfold wakeGate
  split
  · split
    · exact placedF_placeOrder other ((placedF_of_fSide (fSide_modCh c _ s) f).mpr h)
    · exact h
  · exact h

/-- The part awake, before its gates have sent anything. -/
def switchedOn (s : State) : State := modPower (fun p => { p with state := .on }) s

theorem wake_standby {s : State} (standby : s.power.state = .standby) :
    wake s = startC (startF (wakeGate .b (wakeGate .a (switchedOn s)))) := by
  simp only [wake, standby]
  rfl

/-- Waking as it is told apart from the line: the part is ON and both gates have woken. -/
theorem wake_offLine {s : State} (standby : s.power.state = .standby) :
    (wake s).offLine = (modGate .b wokenGate (modGate .a wokenGate (switchedOn s))).offLine := by
  rw [wake_standby standby, startC_offLine, startF_offLine, wakeGate_offLine, offLine_modGate, wakeGate_offLine,
    ← offLine_modGate]

/-- A gate's SENT order has its place on port F once the part has woken. -/
theorem wake_resends {s : State} {c : Chan} {o : Order} {node : NodeEntry} (standby : s.power.state = .standby)
    (sent : (s.ch c).gate.outstanding = some o) (phase : o.phase = .sent) (valve : nodeOf s c .valve = some node) :
    ∃ q, placedF (wake s) (.order c node.address q o.position o.number) := by
  rw [wake_standby standby]
  suffices resent : ∃ q, placedF (wakeGate .b (wakeGate .a (switchedOn s)))
      (.order c node.address q o.position o.number) by
    obtain ⟨q, placed⟩ := resent
    exact ⟨q, (placedF_of_fSide (startC_fSide _) _).mpr (placedF_startF placed)⟩
  cases c with
  | a =>
    obtain ⟨q, placed⟩ := wakeGate_placed (s := switchedOn s) (c := .a) sent phase valve
    exact ⟨q, placedF_wakeGate rfl placed⟩
  | b =>
    have untouched := wakeGate_other (c := .a) (d := .b) (by simp) (switchedOn s)
    have still : ((wakeGate .a (switchedOn s)).ch .b).gate.outstanding = some o :=
      (congrArg (fun x : Channel => x.gate.outstanding) untouched).trans sent
    exact wakeGate_placed still phase (by rw [nodeOf, wakeGate_store]; exact valve)

/-- A command that has woken the part leaves it ON, its inputs as they were, both gates woken, and port F as the waking
left it. -/
theorem finish_wake {s : State} (standby : s.power.state = .standby) :
    (finish (wake s)).power.state = .on ∧ (finish (wake s)).pins = s.pins ∧
      (∀ c, ((finish (wake s)).ch c).gate = wokenGate (s.ch c).gate) ∧ fSide (finish (wake s)) = fSide (wake s) := by
  have woken := wake_offLine standby
  have on : (wake s).power.state = .on :=
    (offLine_field woken (fun v => v.power.state) fun _ => rfl).trans (by simp [switchedOn])
  have running : (wake s).power.state ≠ .shutdown := by simp [on]
  have frame := (finish_offLine running).trans woken
  refine ⟨?_, ?_, fun c => ?_, finish_fSide running⟩
  · exact (offLine_field (finish_offLine running) (fun v => v.power.state) fun _ => rfl).trans on
  · exact (offLine_field frame (fun v => v.pins) fun _ => rfl).trans (by simp [switchedOn])
  · exact (congrArg Channel.gate (ch_offLine_eq frame c)).trans (by cases c <;> rfl)

/-- The ignition's change to ON wakes the part, and each gate that had sent an order sends it again under its number. -/
theorem ignitionOn_wakes {s : State} (standby : s.power.state = .standby) :
    ∃ t, exec .ignitionOn s = .next t ∧ t.power.state = .on ∧ t.pins.ignitionOn = true ∧
      ∀ (c : Chan) (o : Order) (n : NodeEntry), (s.ch c).gate.outstanding = some o → o.phase = .sent →
        nodeOf s c .valve = some n →
        (t.ch c).gate.outstanding = some { o with phase := .queued } ∧ (t.ch c).gate.timer = false ∧
        ∃ q, placedF t (.order c n.address q o.position o.number) := by
  obtain ⟨on, pins, gates, port⟩ := finish_wake (s := setIgnition true (noteValues s)) standby
  refine ⟨finish (wake (setIgnition true (noteValues s))), rfl, on, ?_, fun c o n sent phase valve => ?_⟩
  · rw [pins]
    rfl
  · have outstanding : ((setIgnition true (noteValues s)).ch c).gate.outstanding = some o := by
      cases c <;> exact sent
    rw [gates, wokenGate_sent outstanding phase]
    obtain ⟨q, placed⟩ := wake_resends (s := setIgnition true (noteValues s)) standby outstanding phase valve
    exact ⟨rfl, rfl, q, (placedF_of_fSide port _).mpr placed⟩

/-- Settles O18: the ignition's two changes and the expiry of the standby delay timer, by the power state and
whether the timer runs. -/
theorem ignitionAndStandby : Obligations.IgnitionAndStandby :=
  ⟨fun _ => ignitionOff_told, fun _ run => ⟨standbyExpiry_enters, standbyExpiry_stopped run⟩,
   fun _ => ignitionOn_awake, fun _ => ignitionOn_wakes⟩

end Sys2Proof.Machine.Standby

namespace Sys2Proof.Machine.Stepping
open Sys2Proof.Machine.HoldsAndLockout

/-! ### What a step runs -/

/-- A step over a queue that is not empty, told of the state as it stands. -/
theorem step_front {s : State} {i : Instr} {rest : List Instr} (front : s.pending = i :: rest) :
    step s = exec i { s with pending := rest } := by
  rw [step, front]

/-- Settles O1, as `step_front` at a state whose queue is written out. -/
theorem stepRunsTheFrontCommand : Obligations.StepRunsTheFrontCommand := fun i rest s =>
  step_front (s := { s with pending := i :: rest }) rfl

/-- Settles O3: what closes every command yields the next state, whichever arm of the dispatch runs. -/
theorem everyCommandCompletes : Obligations.EveryCommandCompletes := fun i s =>
  have ⟨u, ends⟩ := exec_finishes i s
  ⟨finish u, ends⟩

end Sys2Proof.Machine.Stepping
